-- ==== Sys2Proof/Word.lean ====
section
/-! DEFINITION. The words of the block and the plain data types its spec names: channels, channel pairs, the eight power
flags, the pins of one clock edge. -/

namespace Sys2Proof

/-- One byte on the control link (20_memory.md R31). -/
abbrev Byte := BitVec 8

/-- A 32-bit command word (30_encoding.md R47). -/
abbrev Command := BitVec 32

/-- A 16-bit control frame: address in bits 15..9, payload in bits 8..0 (30_encoding.md R58). -/
abbrev Frame := BitVec 16

/-- A 9-bit register payload (30_encoding.md R58). -/
abbrev Payload := BitVec 9

/-- The two channels, "the only valid channel keys anywhere in the system" (10_state.md R17, 30_encoding.md R48). -/
inductive Channel where
  | left
  | right
  deriving DecidableEq, Repr

/-- `ChannelPair<T>`: "exactly two named slots (left, right) of type T" (10_state.md R17). -/
structure ChannelPair (α : Type) where
  left : α
  right : α
  deriving DecidableEq, Repr

/-- `PowerConfig`: "8 independent boolean flags" (10_state.md R18). -/
structure PowerConfig where
  adcLeft : Bool
  adcRight : Bool
  dacLeft : Bool
  dacRight : Bool
  leftOut1 : Bool
  rightOut1 : Bool
  pgaLeft : Bool
  pgaRight : Bool
  deriving DecidableEq, Repr

/-- `SEQ.SNAP`: the values one sub-operation commits to the mirror (10_state.md R22); one constructor per mirror update
of the plans of 41_setters.md R83 to R89, and `nothing` for the sub-operations that commit nothing (R87, the Reset frame
of R91). -/
inductive Snap where
  | nothing
  | inputVolume (ch : Channel) (v : BitVec 6)
  | outputVolume (ch : Channel) (v : BitVec 7)
  | power (cfg : PowerConfig)
  | mix (ch : Channel) (l r : BitVec 3)
  | dacVolume (ch : Channel) (v : BitVec 8)
  | mute (m : Bool)
  deriving DecidableEq, Repr, Inhabited

/-- The input pins of the block as one rising edge of `clk` samples them (30_encoding.md R46). -/
structure Pins where
  /-- `rst_n`, active low. -/
  rstN : Bool
  /-- `cmd_valid`. -/
  cmdValid : Bool
  /-- `cmd_word`. -/
  cmdWord : Command
  /-- `rsp_ready`. -/
  rspReady : Bool
  /-- `tx_done`. -/
  txDone : Bool
  /-- `tx_fault`. -/
  txFault : Bool
  deriving DecidableEq, Repr, Inhabited

end Sys2Proof
end

