-- ==== Sys2Proof/Syntax.lean ====
section
/-! DEFINITION. The syntax: one constructor per row of spec/opcode_table.json, the 13 commands the host issues
(30_encoding.md R50) and the 15 frames the block emits (R60 to R69). -/

namespace Sys2Proof

/-- One row of the opcode table, with its fields. A command's operands are its 8-bit fields A and B as they stand, not
yet range-checked (30_encoding.md R49); a frame's fields are the variable fields of its payload layout. -/
inductive Instr where
  /-- RESET (42_reset_and_getters.md R91). -/
  | reset
  /-- SETIV ch, a (41_setters.md R83). -/
  | setiv (ch : Channel) (a : BitVec 8)
  /-- SETOV ch, a (R84). -/
  | setov (ch : Channel) (a : BitVec 8)
  /-- SETPM a (R85). -/
  | setpm (a : BitVec 8)
  /-- SETMIX ch, a, b (R86). -/
  | setmix (ch : Channel) (a b : BitVec 8)
  /-- SETDAI a (R87). -/
  | setdai (a : BitVec 8)
  /-- SETDV ch, a (R88). -/
  | setdv (ch : Channel) (a : BitVec 8)
  /-- SETDM a (R89). -/
  | setdm (a : BitVec 8)
  /-- GETIV ch (42_reset_and_getters.md R94). -/
  | getiv (ch : Channel)
  /-- GETOV ch (R95). -/
  | getov (ch : Channel)
  /-- GETPM (R96). -/
  | getpm
  /-- GETMIX ch (R97). -/
  | getmix (ch : Channel)
  /-- GETDV ch (R98). -/
  | getdv (ch : Channel)
  /-- FRAME.LeftInputVolume (30_encoding.md R60). -/
  | frameLeftInputVolume (mute : Bool) (volume : BitVec 6)
  /-- FRAME.RightInputVolume (R60). -/
  | frameRightInputVolume (mute : Bool) (volume : BitVec 6)
  /-- FRAME.LeftOutput1Volume (R61). -/
  | frameLeftOutput1Volume (volume : BitVec 7)
  /-- FRAME.RightOutput1Volume (R61). -/
  | frameRightOutput1Volume (volume : BitVec 7)
  /-- FRAME.ADCDACControl (R62). -/
  | frameAdcDacControl (mute : Bool)
  /-- FRAME.AudioInterface (R63). -/
  | frameAudioInterface (wordLength : BitVec 2)
  /-- FRAME.LeftDACVolume (R64). -/
  | frameLeftDacVolume (volume : BitVec 8)
  /-- FRAME.RightDACVolume (R64). -/
  | frameRightDacVolume (volume : BitVec 8)
  /-- FRAME.Reset (R65). -/
  | frameReset
  /-- FRAME.PowerManagement1 (R66). -/
  | framePowerManagement1 (pgaLeft pgaRight adcLeft adcRight : Bool)
  /-- FRAME.PowerManagement2 (R67). -/
  | framePowerManagement2 (dacLeft dacRight leftOut1 rightOut1 : Bool)
  /-- FRAME.LeftOutMix1 (R68). -/
  | frameLeftOutMix1 (enabled : Bool) (attenuation : BitVec 3)
  /-- FRAME.LeftOutMix2 (R69). -/
  | frameLeftOutMix2 (enabled : Bool) (attenuation : BitVec 3)
  /-- FRAME.RightOutMix1 (R68). -/
  | frameRightOutMix1 (enabled : Bool) (attenuation : BitVec 3)
  /-- FRAME.RightOutMix2 (R69). -/
  | frameRightOutMix2 (enabled : Bool) (attenuation : BitVec 3)
  deriving DecidableEq, Repr

/-- A word as the block meets it: a 32-bit command taken whole from the command port, or a 16-bit frame on the transport
port. The two never share a port, so a word carries which it is (20_memory.md R32). -/
inductive CodeWord where
  | command (w : Command)
  | frame (f : Frame)
  deriving DecidableEq, Repr

end Sys2Proof
end

