-- ==== Sys2Proof/WellFormed.lean ====
section
/-! DEFINITION. Well-formed instructions: which frames the block can produce (30_encoding.md R70). -/

namespace Sys2Proof

/-- The derived bit of the input-volume layout: `mute = (v == 0)` (30_encoding.md R60). -/
def muteAgrees (mute : Bool) (volume : BitVec 6) : Bool := mute == (volume == 0#6)

/-- The derived bit of the mix layouts: the enable is `(level ≠ 0)` and the attenuation is `7 − level`, so the enable is
0 exactly when the attenuation is 7 (30_encoding.md R68, R69). -/
def enableAgrees (enabled : Bool) (attenuation : BitVec 3) : Bool := enabled == (attenuation != 7#3)

/-- Every command term is well formed: its fields have the widths of 30_encoding.md R47 by type, and an out-of-range
operand is no malformed command but raises ValueOutOfRange when it runs (R49). A frame term is well formed when its
derived bits are what its operand makes them; the block produces no other (R70). -/
def Instr.wellFormed : Instr → Bool
  | .reset => true
  | .setiv _ _ => true
  | .setov _ _ => true
  | .setpm _ => true
  | .setmix _ _ _ => true
  | .setdai _ => true
  | .setdv _ _ => true
  | .setdm _ => true
  | .getiv _ => true
  | .getov _ => true
  | .getpm => true
  | .getmix _ => true
  | .getdv _ => true
  | .frameLeftInputVolume mute volume => muteAgrees mute volume
  | .frameRightInputVolume mute volume => muteAgrees mute volume
  | .frameLeftOutput1Volume _ => true
  | .frameRightOutput1Volume _ => true
  | .frameAdcDacControl _ => true
  | .frameAudioInterface _ => true
  | .frameLeftDacVolume _ => true
  | .frameRightDacVolume _ => true
  | .frameReset => true
  | .framePowerManagement1 _ _ _ _ => true
  | .framePowerManagement2 _ _ _ _ => true
  | .frameLeftOutMix1 enabled attenuation => enableAgrees enabled attenuation
  | .frameLeftOutMix2 enabled attenuation => enableAgrees enabled attenuation
  | .frameRightOutMix1 enabled attenuation => enableAgrees enabled attenuation
  | .frameRightOutMix2 enabled attenuation => enableAgrees enabled attenuation

end Sys2Proof
end

