-- ==== Sys2Proof/Decode.lean ====
section
/-! DEFINITION. The decoders of command words and control frames, total and rejecting by name, and the encoders, written
from the field layouts of 30_encoding.md (the decoders from its match and mask columns). -/

namespace Sys2Proof

/-- Why a word decodes to nothing. -/
inductive DecodeError where
  /-- The command word matches no row of 30_encoding.md R50 (R51). -/
  | illegalCommand
  /-- The frame fits no layout of R60 to R69: "not produced by the block" (R70). -/
  | notProduced
  deriving DecidableEq, Repr

/-- One row of the opcode table: `w` is the row's when `(w & mask) == pattern`. -/
structure Row (n : Nat) where
  pattern : BitVec n
  mask : BitVec n
  read : BitVec n → Instr

/-- The row selects the word (30_encoding.md R50). -/
def Row.selects {n : Nat} (r : Row n) (w : BitVec n) : Bool := w &&& r.mask == r.pattern

/-- CH: 0 is Left, 1 is Right (30_encoding.md R48). -/
def Channel.ofBit (b : Bool) : Channel := if b then .right else .left

/-- Field CH, `cmd[16]` (R47). -/
def fieldCh (w : Command) : Channel := Channel.ofBit (w.getLsbD 16)

/-- Field B, `cmd[15:8]` (R47). -/
def fieldB (w : Command) : BitVec 8 := w.extractLsb' 8 8

/-- Field A, `cmd[7:0]` (R47). -/
def fieldA (w : Command) : BitVec 8 := w.extractLsb' 0 8

/-- The thirteen commands (30_encoding.md R50). -/
def commandRows : List (Row 32) :=
  [⟨0x10000000#32, 0xFFFFFFFF#32, fun _ => .reset⟩,
   ⟨0x20000000#32, 0xFFFEFF00#32, fun w => .setiv (fieldCh w) (fieldA w)⟩,
   ⟨0x30000000#32, 0xFFFEFF00#32, fun w => .setov (fieldCh w) (fieldA w)⟩,
   ⟨0x40000000#32, 0xFFFFFF00#32, fun w => .setpm (fieldA w)⟩,
   ⟨0x50000000#32, 0xFFFE0000#32, fun w => .setmix (fieldCh w) (fieldA w) (fieldB w)⟩,
   ⟨0x60000000#32, 0xFFFFFF00#32, fun w => .setdai (fieldA w)⟩,
   ⟨0x70000000#32, 0xFFFEFF00#32, fun w => .setdv (fieldCh w) (fieldA w)⟩,
   ⟨0x80000000#32, 0xFFFFFF00#32, fun w => .setdm (fieldA w)⟩,
   ⟨0x90000000#32, 0xFFFEFFFF#32, fun w => .getiv (fieldCh w)⟩,
   ⟨0xA0000000#32, 0xFFFEFFFF#32, fun w => .getov (fieldCh w)⟩,
   ⟨0xB0000000#32, 0xFFFFFFFF#32, fun _ => .getpm⟩,
   ⟨0xC0000000#32, 0xFFFEFFFF#32, fun w => .getmix (fieldCh w)⟩,
   ⟨0xD0000000#32, 0xFFFEFFFF#32, fun w => .getdv (fieldCh w)⟩]

/-- The fifteen frames: the address and the fixed and unnamed payload bits select the row (30_encoding.md R59 to R69,
spec/opcode_table.json). -/
def frameRows : List (Row 16) :=
  [⟨0x0100#16, 0xFF40#16, fun f => .frameLeftInputVolume (f.getLsbD 7) (f.extractLsb' 0 6)⟩,
   ⟨0x0300#16, 0xFF40#16, fun f => .frameRightInputVolume (f.getLsbD 7) (f.extractLsb' 0 6)⟩,
   ⟨0x0500#16, 0xFF80#16, fun f => .frameLeftOutput1Volume (f.extractLsb' 0 7)⟩,
   ⟨0x0700#16, 0xFF80#16, fun f => .frameRightOutput1Volume (f.extractLsb' 0 7)⟩,
   ⟨0x0A00#16, 0xFFF7#16, fun f => .frameAdcDacControl (f.getLsbD 3)⟩,
   ⟨0x0E02#16, 0xFFF3#16, fun f => .frameAudioInterface (f.extractLsb' 2 2)⟩,
   ⟨0x1500#16, 0xFF00#16, fun f => .frameLeftDacVolume (f.extractLsb' 0 8)⟩,
   ⟨0x1700#16, 0xFF00#16, fun f => .frameRightDacVolume (f.extractLsb' 0 8)⟩,
   ⟨0x1E00#16, 0xFFFF#16, fun _ => .frameReset⟩,
   ⟨0x32C0#16, 0xFFC3#16,
     fun f => .framePowerManagement1 (f.getLsbD 5) (f.getLsbD 4) (f.getLsbD 3) (f.getLsbD 2)⟩,
   ⟨0x3400#16, 0xFE1F#16,
     fun f => .framePowerManagement2 (f.getLsbD 8) (f.getLsbD 7) (f.getLsbD 6) (f.getLsbD 5)⟩,
   ⟨0x4503#16, 0xFF0F#16, fun f => .frameLeftOutMix1 (f.getLsbD 7) (f.extractLsb' 4 3)⟩,
   ⟨0x4600#16, 0xFF0F#16, fun f => .frameLeftOutMix2 (f.getLsbD 7) (f.extractLsb' 4 3)⟩,
   ⟨0x4803#16, 0xFF0F#16, fun f => .frameRightOutMix1 (f.getLsbD 7) (f.extractLsb' 4 3)⟩,
   ⟨0x4B00#16, 0xFF0F#16, fun f => .frameRightOutMix2 (f.getLsbD 7) (f.extractLsb' 4 3)⟩]

/-- The command a 32-bit word is, or illegal (30_encoding.md R50, R51). -/
def decodeCommand (w : Command) : Except DecodeError Instr :=
  match commandRows.find? (·.selects w) with
  | some r => .ok (r.read w)
  | none => .error .illegalCommand

/-- The row of the opcode table a 16-bit frame belongs to, with its fields as they stand. Whether its derived bits agree
with its operand is `Instr.wellFormed` (log entry 13). -/
def decodeFrame (f : Frame) : Except DecodeError Instr :=
  match frameRows.find? (·.selects f) with
  | some r => .ok (r.read f)
  | none => .error .notProduced

/-- The test-bench decoder of 30_encoding.md R70: a frame the block can produce, every other 16-bit value being "not
produced by the block". -/
def decodeProduced (f : Frame) : Except DecodeError Instr :=
  match decodeFrame f with
  | .ok i => if i.wellFormed then .ok i else .error .notProduced
  | .error e => .error e

/-- The decoder, total on every word of either port. -/
def decode : CodeWord → Except DecodeError Instr
  | .command w => decodeCommand w
  | .frame f => decodeFrame f

/-- What the decoder reads from the two bytes of a frame, the most significant first (20_memory.md R31). -/
def decodeFrameBytes (byte0 byte1 : Byte) : Except DecodeError Instr := decodeFrame (byte0 ++ byte1)

/-- The bit of CH (30_encoding.md R48). -/
def Channel.bit : Channel → BitVec 1
  | .left => 0#1
  | .right => 1#1

/-- A command word from its fields, RSVD being 0 (30_encoding.md R47). -/
def commandWord (op : BitVec 4) (ch : Channel) (b a : BitVec 8) : Command := op ++ 0#11 ++ ch.bit ++ b ++ a

/-- A frame from its address and payload (30_encoding.md R58). -/
def frameWord (addr : BitVec 7) (data9 : Payload) : Frame := addr ++ data9

/-- Payload of LeftInputVolume and RightInputVolume, bit 8 down (30_encoding.md R60). -/
def inputVolumePayload (mute : Bool) (volume : BitVec 6) : Payload := 1#1 ++ BitVec.ofBool mute ++ 0#1 ++ volume

/-- Payload of LeftOutput1Volume and RightOutput1Volume (R61): bit 7 is always 0. -/
def outputVolumePayload (volume : BitVec 7) : Payload := 1#1 ++ 0#1 ++ volume

/-- Payload of ADCDACControl (R62). -/
def adcDacControlPayload (mute : Bool) : Payload := 0#5 ++ BitVec.ofBool mute ++ 0#3

/-- Payload of AudioInterface (R63), the audio format fixed at I2S. -/
def audioInterfacePayload (wordLength : BitVec 2) : Payload := 0#5 ++ wordLength ++ 0b10#2

/-- Payload of LeftDACVolume and RightDACVolume (R64). -/
def dacVolumePayload (volume : BitVec 8) : Payload := 1#1 ++ volume

/-- Payload of PowerManagement1 (R66). -/
def power1Payload (pgaLeft pgaRight adcLeft adcRight : Bool) : Payload :=
  0b011#3 ++ BitVec.ofBool pgaLeft ++ BitVec.ofBool pgaRight ++ BitVec.ofBool adcLeft ++ BitVec.ofBool adcRight ++ 0#2

/-- Payload of PowerManagement2 (R67). -/
def power2Payload (dacLeft dacRight leftOut1 rightOut1 : Bool) : Payload :=
  BitVec.ofBool dacLeft ++ BitVec.ofBool dacRight ++ BitVec.ofBool leftOut1 ++ BitVec.ofBool rightOut1 ++ 0#5

/-- Payload of LeftOutMix1 and RightOutMix1 (R68), the input selection fixed at MicBoost. -/
def outMix1Payload (leftDac enabled : Bool) (attenuation : BitVec 3) : Payload :=
  BitVec.ofBool leftDac ++ BitVec.ofBool enabled ++ attenuation ++ 0b0011#4

/-- Payload of LeftOutMix2 and RightOutMix2 (R69). -/
def outMix2Payload (rightDac enabled : Bool) (attenuation : BitVec 3) : Payload :=
  BitVec.ofBool rightDac ++ BitVec.ofBool enabled ++ attenuation ++ 0#4

/-- The encoder (30_encoding.md R47 to R50 for the commands, R58 to R69 for the frames). -/
def encode : Instr → CodeWord
  | .reset => .command (commandWord 0x1#4 .left 0#8 0#8)
  | .setiv ch a => .command (commandWord 0x2#4 ch 0#8 a)
  | .setov ch a => .command (commandWord 0x3#4 ch 0#8 a)
  | .setpm a => .command (commandWord 0x4#4 .left 0#8 a)
  | .setmix ch a b => .command (commandWord 0x5#4 ch b a)
  | .setdai a => .command (commandWord 0x6#4 .left 0#8 a)
  | .setdv ch a => .command (commandWord 0x7#4 ch 0#8 a)
  | .setdm a => .command (commandWord 0x8#4 .left 0#8 a)
  | .getiv ch => .command (commandWord 0x9#4 ch 0#8 0#8)
  | .getov ch => .command (commandWord 0xA#4 ch 0#8 0#8)
  | .getpm => .command (commandWord 0xB#4 .left 0#8 0#8)
  | .getmix ch => .command (commandWord 0xC#4 ch 0#8 0#8)
  | .getdv ch => .command (commandWord 0xD#4 ch 0#8 0#8)
  | .frameLeftInputVolume mute volume => .frame (frameWord 0x00#7 (inputVolumePayload mute volume))
  | .frameRightInputVolume mute volume => .frame (frameWord 0x01#7 (inputVolumePayload mute volume))
  | .frameLeftOutput1Volume volume => .frame (frameWord 0x02#7 (outputVolumePayload volume))
  | .frameRightOutput1Volume volume => .frame (frameWord 0x03#7 (outputVolumePayload volume))
  | .frameAdcDacControl mute => .frame (frameWord 0x05#7 (adcDacControlPayload mute))
  | .frameAudioInterface wordLength => .frame (frameWord 0x07#7 (audioInterfacePayload wordLength))
  | .frameLeftDacVolume volume => .frame (frameWord 0x0A#7 (dacVolumePayload volume))
  | .frameRightDacVolume volume => .frame (frameWord 0x0B#7 (dacVolumePayload volume))
  | .frameReset => .frame (frameWord 0x0F#7 0#9)
  | .framePowerManagement1 pl pr al ar => .frame (frameWord 0x19#7 (power1Payload pl pr al ar))
  | .framePowerManagement2 dl dr lo ro => .frame (frameWord 0x1A#7 (power2Payload dl dr lo ro))
  | .frameLeftOutMix1 enabled att => .frame (frameWord 0x22#7 (outMix1Payload true enabled att))
  | .frameLeftOutMix2 enabled att => .frame (frameWord 0x23#7 (outMix2Payload false enabled att))
  | .frameRightOutMix1 enabled att => .frame (frameWord 0x24#7 (outMix1Payload false enabled att))
  | .frameRightOutMix2 enabled att => .frame (frameWord 0x25#7 (outMix2Payload true enabled att))

/-- The instruction the decoder reads from `nbits` bits numbered as spec/opcode_table.json numbers them: 32 bits are a
command, 16 a frame; the block has no other word (30_encoding.md R52). -/
def decodeTableWord (nbits w : Nat) : Option Instr :=
  if nbits = 32 then (decodeCommand (BitVec.ofNat 32 w)).toOption
  else if nbits = 16 then (decodeFrame (BitVec.ofNat 16 w)).toOption
  else none

end Sys2Proof
end

