-- ==== Sys2Proof/Config.lean ====
section
/-! DEFINITION. What an implementation fixes (the two parameters of 00_scope.md R7 that the source leaves open) and the
free values: the inputs the environment has not been given yet, and the two sequencer fields hardware reset leaves
unspecified. -/

namespace Sys2Proof

/-- The eleven sub-operations of RESET after the Reset frame: steps (2) to (8) of 42_reset_and_getters.md R91, each
channel's part by itself. -/
inductive ResetSub where
  | inputVolume (ch : Channel)
  | outputVolume (ch : Channel)
  | power
  | mix (ch : Channel)
  | audioInterface
  | dacVolume (ch : Channel)
  | mute
  deriving DecidableEq, Repr

/-- The listed order, Left before Right: the default of `RESET_ORDER` (42_reset_and_getters.md R91, 92_eei_decisions.md
D14). -/
def ResetSub.listed : List ResetSub :=
  [.inputVolume .left, .inputVolume .right, .outputVolume .left, .outputVolume .right, .power,
   .mix .left, .mix .right, .audioInterface, .dacVolume .left, .dacVolume .right, .mute]

/-- The parameters the source leaves open: `WL16_CODE` and `RESET_ORDER` (00_scope.md R7, 92_eei_decisions.md D14, D15).
They stand in State, where no step writes them, so that a statement about every state quantifies over every choice. -/
structure Config where
  /-- `WL16_CODE`. -/
  wl16Code : BitVec 2
  /-- `RESET_ORDER`: the order of sub-operations 1 to 11 of RESET; sub-operation 0 (the Reset frame) is always first. -/
  resetOrder : List ResetSub
  deriving DecidableEq, Repr

/-- The spec's defaults: code `0b00`, the listed order (00_scope.md R7; log entries 10 and 11). -/
def Config.default : Config := ⟨0b00#2, ResetSub.listed⟩

/-- An admitted `RESET_ORDER` holds each of the eleven sub-operations once (90_conflicts.md C6). -/
abbrev Config.wf (c : Config) : Prop := c.resetOrder.Perm ResetSub.listed

/-- FREE VALUE (log entry 2): the pins at an edge for which State lists no input, by the number of the edge. The host and
the transport are free agents (00_scope.md R6, 93_implementation_defined.md U7). -/
opaque Config.freePins : Nat → Pins

/-- FREE VALUE (log entry 4): `SEQ.CMD` after hardware reset (70_reset_and_hazards.md R119, 93_implementation_defined.md
U10), by the number of the edge. -/
opaque Config.freeCmd : Nat → Command

/-- FREE VALUE (log entry 4): `SEQ.SNAP` after hardware reset (R119, U10), by the number of the edge. -/
opaque Config.freeSnap : Nat → Snap

end Sys2Proof
end

