-- ==== Sys2Proof/Machine/State.lean ====
section
/-! DEFINITION. The state of the block, with the ports it shares with the host and the transport, as plain data; the
faults and refusals a step can end in; the state after hardware reset. -/

namespace Sys2Proof.Machine

/-- `MODE` (10_state.md R14). The code `0b11` is never held (log entry 7). -/
inductive Mode where
  | uninit
  | ready
  | fatal
  deriving DecidableEq, Repr

/-- `rsp_status` (30_encoding.md R57). -/
inductive Status where
  | ok
  | transportFault
  | notInitialized
  | illegalCommand
  deriving DecidableEq, Repr

/-- One response: a status and 16 bits of data (10_state.md R23, 30_encoding.md R57). -/
structure Response where
  status : Status
  data : BitVec 16
  deriving DecidableEq, Repr

/-- The codec state mirror `M`, exactly the fields of 10_state.md R18. -/
structure Mirror where
  iv : ChannelPair (BitVec 6)
  ov : ChannelPair (BitVec 7)
  dv : ChannelPair (BitVec 8)
  /-- `M.MIX[o].left` and `M.MIX[o].right`: first the output side `o`, then the input channel. -/
  mix : ChannelPair (ChannelPair (BitVec 3))
  pwr : PowerConfig
  mute : Bool
  deriving DecidableEq, Repr

/-- The sequencer state `SEQ` (10_state.md R22). -/
structure Seq where
  /-- `SEQ.BUSY`. -/
  busy : Bool
  /-- `SEQ.CMD`. -/
  cmd : Command
  /-- `SEQ.J`, the index of the current sub-operation (log entry 6 on its width). -/
  j : BitVec 4
  /-- `SEQ.K`, the index of the next frame within the whole command (log entry 5). -/
  k : BitVec 4
  /-- `SEQ.SNAP`. -/
  snap : Snap
  deriving DecidableEq, Repr

/-- What is known of the codec's registers, the ghost `CHIP` (10_state.md R25): the addresses whose value is known, rising,
each with its 9-bit value. An unlisted address holds an unknown value (log entry 8). -/
abbrev Memory := List (Nat × Payload)

/-- The state of the machine. -/
structure State where
  /-- `MODE` (10_state.md R14). -/
  mode : Mode
  /-- `FAULT_VALID` (R15). -/
  faultValid : Bool
  /-- `FAULT_CMD` (R16). -/
  faultCmd : Command
  /-- `M` (R18). -/
  m : Mirror
  /-- `SEQ` (R22). -/
  seq : Seq
  /-- `RSP`, empty when `none` (R23). -/
  rsp : Option Response
  /-- The frame in flight on the transport port, `tx_valid` and `tx_frame` (R26, 30_encoding.md R55). -/
  tx : Option Frame
  /-- Ghost: what is known of the codec's registers (R25). -/
  chip : Memory
  /-- Ghost: every byte handed to the transport, oldest first (20_memory.md R31, R36; log entry 17). -/
  wire : List Byte
  /-- The implementation's parameters, which no step writes (00_scope.md R7). -/
  cfg : Config
  /-- The input pins at this edge (30_encoding.md R46; log entry 2). -/
  pins : Pins
  /-- The input pins at the edges to come, the next first (log entry 2). -/
  future : List Pins
  /-- The number of this edge, which indexes the free values (log entry 2). -/
  tick : Nat
  deriving DecidableEq, Repr

/-- What a rising edge of `clk` does (00_scope.md R6, 30_encoding.md R53 to R55, 70_reset_and_hazards.md R119). -/
inductive Edge where
  /-- `rst_n = 0`: the block takes its reset state. -/
  | reset
  /-- A response is delivered. -/
  | deliver
  /-- A response is offered and not taken, or no command is presented: nothing changes. -/
  | hold
  /-- The host presents a command to the idle block. -/
  | command (w : Command)
  /-- The frame on the transport port, or the one to put there. -/
  | frame (f : Frame)
  /-- A command is running and its plan has no frame at `SEQ.K`. -/
  | lost
  deriving DecidableEq, Repr

/-- Why the machine stops with a fault. -/
inductive Fault where
  /-- Raised by `step`, and by a frame's `Ok` answer, when a command is marked running and `SEQ` is no position of the plan
  of `SEQ.CMD`. The spec gives such a state no meaning and no run reaches it. SAFE: the machine stops (log entry 14). -/
  | sequencerLost
  deriving DecidableEq, Repr

/-- Why the machine refuses. -/
inductive Refusal where
  /-- Raised by an arm of `exec` that has no meaning yet. SAFE: the machine stops. -/
  | notModelled (mnemonic : String)
  /-- Raised by a command whose plan packs outside `0 ≤ start ≤ end ≤ 16` (40_packer.md R74, 93_implementation_defined.md
  U4). No command of the block does. SAFE: the machine stops (log entry 12). -/
  | packOutsideDomain
  /-- Raised by `step` when the frame on the transport port fits no layout of the opcode table (30_encoding.md R70, U3). No
  run reaches it. SAFE: the machine stops (log entry 13). -/
  | frameNotProduced
  deriving DecidableEq, Repr

/-- The mirror "created with all-zero/all-disabled defaults" (10_state.md R18). -/
def Mirror.zero : Mirror :=
  { iv := ⟨0#6, 0#6⟩, ov := ⟨0#7, 0#7⟩, dv := ⟨0#8, 0#8⟩, mix := ⟨⟨0#3, 0#3⟩, ⟨0#3, 0#3⟩⟩,
    pwr := ⟨false, false, false, false, false, false, false, false⟩, mute := false }

/-- Pins of an environment that does nothing: reset released, no command, no response taken, no answer (log entry 3). -/
def idlePins : Pins :=
  { rstN := true, cmdValid := false, cmdWord := 0#32, rspReady := false, txDone := false, txFault := false }

/-- The state right after hardware reset (70_reset_and_hazards.md R119). `SEQ.CMD` and `SEQ.SNAP`, which the spec leaves
unspecified, hold zero and nothing (log entry 4); no codec register is known (R125); the environment is idle (log entry
3). -/
def State.reset : State :=
  { mode := .uninit, faultValid := false, faultCmd := 0#32, m := Mirror.zero,
    seq := { busy := false, cmd := 0#32, j := 0#4, k := 0#4, snap := .nothing },
    rsp := none, tx := none, chip := [], wire := [], cfg := Config.default,
    pins := idlePins, future := [], tick := 0 }

end Sys2Proof.Machine
end

