-- ==== Sys2Proof/Machine/Operands.lean ====
section
/-! DEFINITION. Operand forms: the channel select, the power flags as a byte, the range check of every command, the
channel pair's `get` and `set`. -/

namespace Sys2Proof

/-- `P[ch]`: "the slot named by `ch`" (10_state.md R17). -/
def ChannelPair.get {α : Type} (p : ChannelPair α) : Channel → α
  | .left => p.left
  | .right => p.right

/-- `set(ch, v)` "replaces that slot alone" (10_state.md R17). -/
def ChannelPair.set {α : Type} (p : ChannelPair α) (ch : Channel) (v : α) : ChannelPair α :=
  match ch with
  | .left => { p with left := v }
  | .right => { p with right := v }

/-- `(ch = L) ? l : r`, the address selection of the plans (41_setters.md R83). -/
def Channel.pick {α : Type} (ch : Channel) (l r : α) : α :=
  match ch with
  | .left => l
  | .right => r

/-- SETPM's operand as eight flags: bit `i` is the `i`-th flag (30_encoding.md R49). -/
def PowerConfig.ofByte (a : BitVec 8) : PowerConfig :=
  { adcLeft := a.getLsbD 0, adcRight := a.getLsbD 1, dacLeft := a.getLsbD 2, dacRight := a.getLsbD 3,
    leftOut1 := a.getLsbD 4, rightOut1 := a.getLsbD 5, pgaLeft := a.getLsbD 6, pgaRight := a.getLsbD 7 }

/-- `pwr8`: the flags packed in the same bit order (42_reset_and_getters.md R96, 10_state.md R18). -/
def PowerConfig.toByte (p : PowerConfig) : BitVec 8 :=
  BitVec.ofBool p.pgaRight ++ BitVec.ofBool p.pgaLeft ++ BitVec.ofBool p.rightOut1 ++ BitVec.ofBool p.leftOut1
    ++ BitVec.ofBool p.dacRight ++ BitVec.ofBool p.dacLeft ++ BitVec.ofBool p.adcRight ++ BitVec.ofBool p.adcLeft

/-- `in_range(d)` (41_setters.md R82). Getters and frames have no range to check. -/
def Instr.inRange : Instr → Bool
  | .reset => true
  | .setiv _ a => decide (a.toNat ≤ 63)
  | .setov _ a => decide (a.toNat ≤ 127)
  | .setpm _ => true
  | .setmix _ a b => decide (a.toNat ≤ 7 ∧ b.toNat ≤ 7)
  | .setdai a => decide (a.toNat ≤ 3)
  | .setdv _ _ => true
  | .setdm a => decide (a.toNat ≤ 1)
  | .getiv _ => true
  | .getov _ => true
  | .getpm => true
  | .getmix _ => true
  | .getdv _ => true
  | .frameLeftInputVolume _ _ => true
  | .frameRightInputVolume _ _ => true
  | .frameLeftOutput1Volume _ => true
  | .frameRightOutput1Volume _ => true
  | .frameAdcDacControl _ => true
  | .frameAudioInterface _ => true
  | .frameLeftDacVolume _ => true
  | .frameRightDacVolume _ => true
  | .frameReset => true
  | .framePowerManagement1 _ _ _ _ => true
  | .framePowerManagement2 _ _ _ _ => true
  | .frameLeftOutMix1 _ _ => true
  | .frameLeftOutMix2 _ _ => true
  | .frameRightOutMix1 _ _ => true
  | .frameRightOutMix2 _ _ => true

/-- The word of a command: the bits the encoder gives it (30_encoding.md R47). A frame is no command and has none. -/
def Instr.word (i : Instr) : Command :=
  match encode i with
  | .command w => w
  | .frame _ => 0#32

/-- The 16 bits of a frame: what the encoder gives it (30_encoding.md R58). A command is no frame and has none. -/
def Instr.frame (i : Instr) : Frame :=
  match encode i with
  | .command _ => 0#16
  | .frame f => f

/-- The seven setters, the commands that `MODE = UNINIT` refuses (60_exceptions.md R105). -/
def Instr.isSetter : Instr → Bool
  | .reset => false
  | .setiv _ _ => true
  | .setov _ _ => true
  | .setpm _ => true
  | .setmix _ _ _ => true
  | .setdai _ => true
  | .setdv _ _ => true
  | .setdm _ => true
  | .getiv _ => false
  | .getov _ => false
  | .getpm => false
  | .getmix _ => false
  | .getdv _ => false
  | .frameLeftInputVolume _ _ => false
  | .frameRightInputVolume _ _ => false
  | .frameLeftOutput1Volume _ => false
  | .frameRightOutput1Volume _ => false
  | .frameAdcDacControl _ => false
  | .frameAudioInterface _ => false
  | .frameLeftDacVolume _ => false
  | .frameRightDacVolume _ => false
  | .frameReset => false
  | .framePowerManagement1 _ _ _ _ => false
  | .framePowerManagement2 _ _ _ _ => false
  | .frameLeftOutMix1 _ _ => false
  | .frameLeftOutMix2 _ _ => false
  | .frameRightOutMix1 _ _ => false
  | .frameRightOutMix2 _ _ => false

/-- The five getters (42_reset_and_getters.md section 2). -/
def Instr.isGetter : Instr → Bool
  | .reset => false
  | .setiv _ _ => false
  | .setov _ _ => false
  | .setpm _ => false
  | .setmix _ _ _ => false
  | .setdai _ => false
  | .setdv _ _ => false
  | .setdm _ => false
  | .getiv _ => true
  | .getov _ => true
  | .getpm => true
  | .getmix _ => true
  | .getdv _ => true
  | .frameLeftInputVolume _ _ => false
  | .frameRightInputVolume _ _ => false
  | .frameLeftOutput1Volume _ => false
  | .frameRightOutput1Volume _ => false
  | .frameAdcDacControl _ => false
  | .frameAudioInterface _ => false
  | .frameLeftDacVolume _ => false
  | .frameRightDacVolume _ => false
  | .frameReset => false
  | .framePowerManagement1 _ _ _ _ => false
  | .framePowerManagement2 _ _ _ _ => false
  | .frameLeftOutMix1 _ _ => false
  | .frameLeftOutMix2 _ _ => false
  | .frameRightOutMix1 _ _ => false
  | .frameRightOutMix2 _ _ => false

/-- A frame row of the opcode table. -/
def Instr.isFrame (i : Instr) : Bool :=
  match encode i with
  | .command _ => false
  | .frame _ => true

end Sys2Proof
end

