-- ==== Sys2Proof/Machine/Flags.lean ====
section
/-! DEFINITION. The block has no arithmetic flags (10_state.md R24). Its status-like values: the codes of `MODE` and of a
response status, `cmd_ready`, the output ports; and the derived payload bits. -/

namespace Sys2Proof.Machine

/-- The 2-bit code of `MODE` (10_state.md R14). -/
def Mode.code : Mode → BitVec 2
  | .uninit => 0b00#2
  | .ready => 0b01#2
  | .fatal => 0b10#2

/-- The 2-bit code of a response status (30_encoding.md R57). -/
def Status.code : Status → BitVec 2
  | .ok => 0b00#2
  | .transportFault => 0b01#2
  | .notInitialized => 0b10#2
  | .illegalCommand => 0b11#2

/-- The conditions of `cmd_ready`: `MODE ≠ FATAL`, `SEQ.BUSY = 0`, `RSP` empty (30_encoding.md R53). -/
def State.cmdReady (s : State) : Bool := s.mode != .fatal && !s.seq.busy && s.rsp.isNone

/-- A command is running: accepted, its response not yet formed (10_state.md R22). -/
def State.running (s : State) : Bool := s.seq.busy && s.rsp.isNone

/-- The output ports (30_encoding.md R46). An absent response or frame is `valid = 0`, whose data lines the spec gives no
value. -/
structure Outputs where
  cmdReady : Bool
  /-- `rsp_valid` with `rsp_status` and `rsp_data`. -/
  rsp : Option (BitVec 2 × BitVec 16)
  /-- `tx_valid` with `tx_frame`. -/
  tx : Option Frame
  stMode : BitVec 2
  stBusy : Bool
  stFaultValid : Bool
  stFaultCmd : Command
  deriving DecidableEq, Repr

/-- What the block drives (30_encoding.md R53 to R56). While `rst_n = 0`, `cmd_ready`, `rsp_valid` and `tx_valid` are 0
(70_reset_and_hazards.md R119; log entry 19). -/
def State.outputs (s : State) : Outputs :=
  { cmdReady := s.pins.rstN && s.cmdReady,
    rsp := if s.pins.rstN then s.rsp.map fun r => (r.status.code, r.data) else none,
    tx := if s.pins.rstN then s.tx else none,
    stMode := s.mode.code, stBusy := s.seq.busy, stFaultValid := s.faultValid, stFaultCmd := s.faultCmd }

/-- A condition as the one-bit number the plans pack: 1 when it holds, else 0 (00_scope.md R8). -/
def flag (b : Bool) : Nat := b.toNat

end Sys2Proof.Machine
end

