-- ==== Sys2Proof/Machine/Packer.lean ====
section
/-! DEFINITION. The bit-field packer and frame assembly (40_packer.md). -/

namespace Sys2Proof.Machine

/-- `mask(n)`: all-ones in the low `n` bits, saturating at 16 (40_packer.md R73). -/
def mask (n : Nat) : BitVec 16 :=
  if n = 0 then 0#16 else if n < 16 then BitVec.ofNat 16 (2 ^ n - 1) else 0xFFFF#16

/-- Why `pack` gives no fragment. -/
inductive PackFail where
  /-- `v > 2^(end - start) − 1` (40_packer.md R74). -/
  | valueOutOfRange
  /-- Outside `0 ≤ start ≤ end ≤ 16`, which the source does not define (93_implementation_defined.md U4). -/
  | outsideDomain
  deriving DecidableEq, Repr

/-- One field of a payload: a value and its half-open bit range `[start, stop)` (00_scope.md R8). -/
structure Field where
  value : Nat
  start : Nat
  stop : Nat
  deriving DecidableEq, Repr

/-- `pack(v, start, end)` (40_packer.md R74). -/
def pack (v start stop : Nat) : Except PackFail (BitVec 16) :=
  if start ≤ stop ∧ stop ≤ 16 then
    if v ≤ 2 ^ (stop - start) - 1 then .ok ((BitVec.ofNat 16 v &&& mask (stop - start)) <<< start)
    else .error .valueOutOfRange
  else .error .outsideDomain

/-- The OR of the fragments of a word (40_packer.md R75). -/
def assemble : List Field → Except PackFail (BitVec 16)
  | [] => .ok 0#16
  | f :: fs =>
    match pack f.value f.start f.stop with
    | .error e => .error e
    | .ok fragment =>
      match assemble fs with
      | .error e => .error e
      | .ok rest => .ok (fragment ||| rest)

/-- `frame(addr, data9)`, register write assembly (40_packer.md R76). -/
def frame (addr data9 : Nat) : Except PackFail Frame := assemble [⟨addr, 9, 16⟩, ⟨data9, 0, 9⟩]

/-- The frame that writes the payload of the given fields to a register. -/
def registerWrite (addr : Nat) (fields : List Field) : Except PackFail Frame :=
  match assemble fields with
  | .error e => .error e
  | .ok data => frame addr data.toNat

/-- The two bytes of a frame, the most significant first (20_memory.md R31). -/
def frameBytes (f : Frame) : List Byte := [f.extractLsb' 8 8, f.extractLsb' 0 8]

/-- The register address of a frame, `f[15:9]` (30_encoding.md R58). -/
def frameAddr (f : Frame) : BitVec 7 := f.extractLsb' 9 7

/-- The payload of a frame, `f[8:0]` (30_encoding.md R58). -/
def framePayload (f : Frame) : Payload := f.extractLsb' 0 9

end Sys2Proof.Machine
end

