-- ==== Sys2Proof/Machine/Plan.lean ====
section
/-! DEFINITION. The plan of every command: its sub-operations, each with its frames and its mirror update (41_setters.md
R81 to R89, 42_reset_and_getters.md R91). -/

namespace Sys2Proof.Machine

/-- One sub-operation: its frames in order, and what it commits once all of them are answered `Ok` (41_setters.md R81). -/
structure SubOp where
  frames : List Frame
  commit : Snap
  deriving DecidableEq, Repr

/-- A sub-operation of one frame. -/
def oneFrame (f : Except PackFail Frame) (commit : Snap) : Except PackFail SubOp :=
  match f with
  | .error e => .error e
  | .ok f => .ok ⟨[f], commit⟩

/-- A sub-operation of two sequential frames. -/
def twoFrames (f g : Except PackFail Frame) (commit : Snap) : Except PackFail SubOp :=
  match f, g with
  | .error e, _ => .error e
  | .ok _, .error e => .error e
  | .ok f, .ok g => .ok ⟨[f, g], commit⟩

/-- set_input_volume (41_setters.md R83). -/
def subInputVolume (ch : Channel) (v : BitVec 8) : Except PackFail SubOp :=
  oneFrame
    (registerWrite (ch.pick 0x00 0x01) [⟨1, 8, 9⟩, ⟨flag (v == 0#8), 7, 8⟩, ⟨0, 6, 7⟩, ⟨v.toNat, 0, 6⟩])
    (.inputVolume ch (v.setWidth 6))

/-- set_output_volume (R84). -/
def subOutputVolume (ch : Channel) (v : BitVec 8) : Except PackFail SubOp :=
  oneFrame (registerWrite (ch.pick 0x02 0x03) [⟨1, 8, 9⟩, ⟨v.toNat, 0, 8⟩]) (.outputVolume ch (v.setWidth 7))

/-- Word A of set_power_management (R85). -/
def powerWordA (p : PowerConfig) : Except PackFail Frame :=
  registerWrite 0x19
    [⟨0b01, 7, 9⟩, ⟨1, 6, 7⟩, ⟨flag p.pgaLeft, 5, 6⟩, ⟨flag p.pgaRight, 4, 5⟩, ⟨flag p.adcLeft, 3, 4⟩,
     ⟨flag p.adcRight, 2, 3⟩, ⟨0, 0, 1⟩]

/-- Word B of set_power_management (R85). -/
def powerWordB (p : PowerConfig) : Except PackFail Frame :=
  registerWrite 0x1A
    [⟨flag p.dacLeft, 8, 9⟩, ⟨flag p.dacRight, 7, 8⟩, ⟨flag p.leftOut1, 6, 7⟩, ⟨flag p.rightOut1, 5, 6⟩,
     ⟨0, 4, 5⟩, ⟨0, 3, 4⟩]

/-- set_power_management: one sub-operation, two frames (R85). -/
def subPower (p : PowerConfig) : Except PackFail SubOp := twoFrames (powerWordA p) (powerWordB p) (.power p)

/-- Word 1 of set_mix (R86). -/
def mixWord1 (ch : Channel) (l : BitVec 8) : Except PackFail Frame :=
  registerWrite (ch.pick 0x22 0x24)
    [⟨flag (ch == .left), 8, 9⟩, ⟨flag (l != 0#8), 7, 8⟩, ⟨7 - l.toNat, 4, 7⟩, ⟨0b011, 0, 3⟩]

/-- Word 2 of set_mix (R86). -/
def mixWord2 (ch : Channel) (r : BitVec 8) : Except PackFail Frame :=
  registerWrite (ch.pick 0x23 0x25) [⟨flag (ch == .right), 8, 9⟩, ⟨flag (r != 0#8), 7, 8⟩, ⟨7 - r.toNat, 4, 7⟩]

/-- set_mix: one sub-operation, two frames (R86). -/
def subMix (ch : Channel) (l r : BitVec 8) : Except PackFail SubOp :=
  twoFrames (mixWord1 ch l) (mixWord2 ch r) (.mix ch (l.setWidth 3) (r.setWidth 3))

/-- set_digital_audio_interface: no mirror update (R87, 90_conflicts.md C1). -/
def subAudioInterface (wl : BitVec 8) : Except PackFail SubOp :=
  oneFrame
    (registerWrite 0x07 [⟨0, 7, 8⟩, ⟨0, 6, 7⟩, ⟨0, 5, 6⟩, ⟨0, 4, 5⟩, ⟨wl.toNat, 2, 4⟩, ⟨0b10, 0, 2⟩])
    .nothing

/-- set_dac_volume (R88). -/
def subDacVolume (ch : Channel) (v : BitVec 8) : Except PackFail SubOp :=
  oneFrame (registerWrite (ch.pick 0x0A 0x0B) [⟨1, 8, 9⟩, ⟨v.toNat, 0, 8⟩]) (.dacVolume ch v)

/-- set_dac_mute (R89). -/
def subMute (m : BitVec 8) : Except PackFail SubOp :=
  oneFrame
    (registerWrite 0x05
      [⟨0, 8, 9⟩, ⟨0, 7, 8⟩, ⟨0, 5, 7⟩, ⟨0, 4, 5⟩, ⟨m.toNat, 3, 4⟩, ⟨0, 1, 3⟩, ⟨0, 0, 1⟩])
    (.mute (m.getLsbD 0))

/-- Sub-operation 0 of RESET: the Reset frame, nothing committed (42_reset_and_getters.md R91). -/
def subSoftReset : Except PackFail SubOp := oneFrame (frame 0x0F 0) .nothing

/-- Sub-operations 1 to 11 of RESET: the plan of the setter named, with the operands given (R91). -/
def subReset (cfg : Config) : ResetSub → Except PackFail SubOp
  | .inputVolume ch => subInputVolume ch 0#8
  | .outputVolume ch => subOutputVolume ch 0#8
  | .power => subPower (PowerConfig.ofByte 0#8)
  | .mix ch => subMix ch 0#8 0#8
  | .audioInterface => subAudioInterface (cfg.wl16Code.setWidth 8)
  | .dacVolume ch => subDacVolume ch 0#8
  | .mute => subMute 0#8

/-- All the sub-operations of a list, or the first failure. -/
def collect : List (Except PackFail SubOp) → Except PackFail (List SubOp)
  | [] => .ok []
  | x :: xs =>
    match x with
    | .error e => .error e
    | .ok so =>
      match collect xs with
      | .error e => .error e
      | .ok rest => .ok (so :: rest)

/-- The plan of RESET: the Reset frame first, then the eleven others in `RESET_ORDER` (R91). -/
def planReset (cfg : Config) : Except PackFail (List SubOp) :=
  collect (subSoftReset :: cfg.resetOrder.map (subReset cfg))

/-- The plan of SETIV (41_setters.md R83). -/
def planSetiv (ch : Channel) (a : BitVec 8) : Except PackFail (List SubOp) := collect [subInputVolume ch a]

/-- The plan of SETOV (R84). -/
def planSetov (ch : Channel) (a : BitVec 8) : Except PackFail (List SubOp) := collect [subOutputVolume ch a]

/-- The plan of SETPM (R85). -/
def planSetpm (a : BitVec 8) : Except PackFail (List SubOp) := collect [subPower (PowerConfig.ofByte a)]

/-- The plan of SETMIX (R86). -/
def planSetmix (ch : Channel) (a b : BitVec 8) : Except PackFail (List SubOp) := collect [subMix ch a b]

/-- The plan of SETDAI (R87). -/
def planSetdai (a : BitVec 8) : Except PackFail (List SubOp) := collect [subAudioInterface a]

/-- The plan of SETDV (R88). -/
def planSetdv (ch : Channel) (a : BitVec 8) : Except PackFail (List SubOp) := collect [subDacVolume ch a]

/-- The plan of SETDM (R89). -/
def planSetdm (a : BitVec 8) : Except PackFail (List SubOp) := collect [subMute a]

/-- `plan(d)`, "a fixed function of the decoded command" (41_setters.md R81). Getters emit no frame, and a frame is no
command. -/
def plan (cfg : Config) : Instr → Except PackFail (List SubOp)
  | .reset => planReset cfg
  | .setiv ch a => planSetiv ch a
  | .setov ch a => planSetov ch a
  | .setpm a => planSetpm a
  | .setmix ch a b => planSetmix ch a b
  | .setdai a => planSetdai a
  | .setdv ch a => planSetdv ch a
  | .setdm a => planSetdm a
  | .getiv _ => .ok []
  | .getov _ => .ok []
  | .getpm => .ok []
  | .getmix _ => .ok []
  | .getdv _ => .ok []
  | .frameLeftInputVolume _ _ => .ok []
  | .frameRightInputVolume _ _ => .ok []
  | .frameLeftOutput1Volume _ => .ok []
  | .frameRightOutput1Volume _ => .ok []
  | .frameAdcDacControl _ => .ok []
  | .frameAudioInterface _ => .ok []
  | .frameLeftDacVolume _ => .ok []
  | .frameRightDacVolume _ => .ok []
  | .frameReset => .ok []
  | .framePowerManagement1 _ _ _ _ => .ok []
  | .framePowerManagement2 _ _ _ _ => .ok []
  | .frameLeftOutMix1 _ _ => .ok []
  | .frameLeftOutMix2 _ _ => .ok []
  | .frameRightOutMix1 _ _ => .ok []
  | .frameRightOutMix2 _ _ => .ok []

/-- The frames of a plan, in the order they leave the block (20_memory.md R36). -/
def planFrames (p : List SubOp) : List Frame := p.flatMap (·.frames)

/-- How many frames the first `j` sub-operations of a plan hold. -/
def framesBefore (p : List SubOp) (j : Nat) : Nat := (planFrames (p.take j)).length

/-- The plan the sequencer follows: that of `SEQ.CMD` (10_state.md R22), if it has one. -/
def State.plan? (s : State) : Option (List SubOp) :=
  match decodeCommand s.seq.cmd with
  | .error _ => none
  | .ok i => (plan s.cfg i).toOption

/-- The frame at `SEQ.K` of the running command's plan. -/
def State.plannedFrame (s : State) : Option Frame :=
  match s.plan? with
  | none => none
  | some p => (planFrames p)[s.seq.k.toNat]?

end Sys2Proof.Machine
end

