-- ==== Sys2Proof/Machine/Ops.lean ====
section
/-! DEFINITION. The shared operations: the ghost codec registers, the mirror commit, accepting a command, responding,
raising ValueOutOfRange and hardware reset (the only way back), running a plan, FrameWrite and its answer, the edge the
block takes next. -/

namespace Sys2Proof.Machine

/-- What is known of the register at address `a`; `none` when its value is unknown (10_state.md R25). -/
def Memory.read (mem : Memory) (a : Nat) : Option Payload :=
  match mem with
  | [] => none
  | (b, v) :: rest => if a = b then some v else Memory.read rest a

/-- The register at address `a` now holds `v`. -/
def Memory.write (mem : Memory) (a : Nat) (v : Payload) : Memory :=
  match mem with
  | [] => [(a, v)]
  | (b, w) :: rest =>
    if a < b then (a, v) :: (b, w) :: rest
    else if a = b then (a, v) :: rest
    else (b, w) :: Memory.write rest a v

/-- The value of the register at address `a` is unknown from now on. -/
def Memory.forget (mem : Memory) (a : Nat) : Memory :=
  match mem with
  | [] => []
  | (b, w) :: rest => if a = b then rest else (b, w) :: Memory.forget rest a

/-- The canonical form: addresses strictly rising, and inside the 7-bit register space (20_memory.md R29). -/
def Memory.wf (mem : Memory) : Bool :=
  match mem with
  | [] => true
  | [(a, _)] => decide (a < 128)
  | (a, _) :: (b, w) :: rest => decide (a < b) && Memory.wf ((b, w) :: rest)

/-- The address of the codec's Reset register (20_memory.md R40). -/
def resetAddr : BitVec 7 := 0x0F#7

/-- What is known of the codec after frame `f` is answered `Ok`: its register holds its payload. After the Reset frame no
other register is known (10_state.md R25). -/
def Memory.answeredOk (mem : Memory) (f : Frame) : Memory :=
  if frameAddr f = resetAddr then Memory.write [] (frameAddr f).toNat (framePayload f)
  else Memory.write mem (frameAddr f).toNat (framePayload f)

/-- What is known of the codec after frame `f` was answered `Fault` or was abandoned in flight: its register is unknown
(10_state.md R25, 70_reset_and_hazards.md R120). The Reset frame may then have taken effect or not, so nothing is known
(log entry 9). -/
def Memory.answeredUnknown (mem : Memory) (f : Frame) : Memory :=
  if frameAddr f = resetAddr then [] else Memory.forget mem (frameAddr f).toNat

/-- `commit()`: the values of `SEQ.SNAP` go into the mirror (41_setters.md R81, 10_state.md R22). -/
def Mirror.commit (m : Mirror) : Snap → Mirror
  | .nothing => m
  | .inputVolume ch v => { m with iv := m.iv.set ch v }
  | .outputVolume ch v => { m with ov := m.ov.set ch v }
  | .power p => { m with pwr := p }
  | .mix ch l r => { m with mix := m.mix.set ch ⟨l, r⟩ }
  | .dacVolume ch v => { m with dv := m.dv.set ch v }
  | .mute b => { m with mute := b }

/-- A command is accepted: `SEQ.BUSY <- 1; SEQ.CMD <- cmd` (41_setters.md R81; log entry
18). -/
def State.accept (s : State) (w : Command) : State := { s with seq := { s.seq with busy := true, cmd := w } }

/-- `respond(status, data)` forms `RSP` (30_encoding.md R57). The spec leaves the edge open (70_reset_and_hazards.md R129); the
model forms it at the edge that decides it, with no delay (DESIGN CHOICE, unsafe for a claim about that edge: log entry 24). -/
def State.respond (s : State) (status : Status) (data : BitVec 16) : State := { s with rsp := some ⟨status, data⟩ }

/-- `raise ValueOutOfRange(cmd)`: enters the fatal mode, records the word and delivers no response (60_exceptions.md
R103; log entry 16), at the edge that accepts the command (log entry 24). -/
def State.raiseValueOutOfRange (s : State) (w : Command) : State :=
  { s with mode := .fatal, faultValid := true, faultCmd := w, seq := { s.seq with busy := false }, rsp := none }

/-- Hardware reset, which alone leaves the fatal mode (70_reset_and_hazards.md R119, R120). A command in progress is
abandoned, and the register of a frame in flight is unknown. `SEQ.CMD` and `SEQ.SNAP` are free (log entry 4). The
codec, the byte log and the parameters are left (log entry 20). -/
def State.hardwareReset (s : State) : State :=
  { s with
    mode := .uninit, faultValid := false, faultCmd := 0#32, m := Mirror.zero,
    seq := { busy := false, cmd := Config.freeCmd s.tick, j := 0#4, k := 0#4, snap := Config.freeSnap s.tick },
    rsp := none, tx := none,
    chip := match s.tx with
      | none => s.chip
      | some f => s.chip.answeredUnknown f }

/-- The response is delivered: `RSP` becomes empty and `SEQ.BUSY <- 0` (30_encoding.md R54). -/
def State.deliver (s : State) : State := { s with rsp := none, seq := { s.seq with busy := false } }

/-- The first sub-operation of a plan is at hand: `SEQ.J` and `SEQ.K` are 0, its values are in `SEQ.SNAP` (41_setters.md
R81, 10_state.md R22). -/
def State.startPlan (s : State) (so : SubOp) : State :=
  { s with seq := { s.seq with j := 0#4, k := 0#4, snap := so.commit } }

/-- The plan of an accepted command begins. A packer failure is raised as ValueOutOfRange (40_packer.md R74); a range
outside the packer's domain is refused (log entry 12). Either comes at the accepting edge (log entry 24). -/
def runPlan (p : Except PackFail (List SubOp)) (w : Command) (s : State) : Host.Outcome State Fault Refusal :=
  match p with
  | .error .valueOutOfRange => .next (s.raiseValueOutOfRange w)
  | .error .outsideDomain => .refused .packOutsideDomain
  | .ok [] => .next (s.respond .ok 0#16)
  | .ok (so :: _) => .next (s.startPlan so)

/-- `EXEC` of a setter (41_setters.md R81), in the order of 60_exceptions.md R108. A block that is not ready does not
accept the command, and nothing changes (30_encoding.md R53). `NOT_INITIALIZED` and ValueOutOfRange come at the accepting
edge (DESIGN CHOICE: log entry 24). -/
def runSetter (w : Command) (inRange : Bool) (p : Except PackFail (List SubOp)) (s : State) :
    Host.Outcome State Fault Refusal :=
  if s.cmdReady then
    if s.mode = .uninit then .next ((s.accept w).respond .notInitialized 0#16)
    else if inRange then runPlan p w (s.accept w)
    else .next ((s.accept w).raiseValueOutOfRange w)
  else .next s

/-- `EXEC` of RESET: `MODE <- UNINIT` first, then its plan (42_reset_and_getters.md R91), at the accepting
edge (log entry 24). -/
def runReset (w : Command) (p : Except PackFail (List SubOp)) (s : State) : Host.Outcome State Fault Refusal :=
  if s.cmdReady then runPlan p w { s.accept w with mode := .uninit } else .next s

/-- `EXEC` of a getter: `respond(OK, value)`, accepted in `UNINIT` and `READY` (42_reset_and_getters.md section 2). The
response is formed at the accepting edge (DESIGN CHOICE: log entry 24). -/
def runGetter (w : Command) (value : BitVec 16) (s : State) : Host.Outcome State Fault Refusal :=
  if s.cmdReady then .next ((s.accept w).respond .ok value) else .next s

/-- `EXEC` of a word that is no command: `respond(ILLEGAL_COMMAND, 0)` (30_encoding.md R51), at the accepting edge (DESIGN
CHOICE: log entry 24). -/
def runIllegal (w : Command) (s : State) : Host.Outcome State Fault Refusal :=
  if s.cmdReady then .next ((s.accept w).respond .illegalCommand 0#16) else .next s

/-- The frame is put on the transport port, its two bytes going out in order (30_encoding.md R55, 40_packer.md R77). -/
def State.emit (s : State) (f : Frame) : State := { s with tx := some f, wire := s.wire ++ frameBytes f }

/-- The frame on the port is answered `Ok`: the port is dropped, the codec's register is known, `SEQ.K <- SEQ.K + 1`
(30_encoding.md R55, 10_state.md R22, R25). -/
def State.frameOk (s : State) (f : Frame) : State :=
  { s with tx := none, chip := s.chip.answeredOk f, seq := { s.seq with k := s.seq.k + 1#4 } }

/-- The frame on the port is answered `Fault`: the command ends with `respond(TRANSPORT_FAULT, zext16(k))` and this
sub-operation commits nothing (60_exceptions.md R101). The response is formed at the edge that takes the answer (DESIGN
CHOICE: log entry 24). -/
def State.frameFault (s : State) (f : Frame) : State :=
  { s with tx := none, chip := s.chip.answeredUnknown f, rsp := some ⟨.transportFault, s.seq.k.setWidth 16⟩ }

/-- All frames of the current sub-operation were answered `Ok`: its values are committed and `SEQ.J <- SEQ.J + 1`
(20_memory.md R37, 10_state.md R22). -/
def State.commitSubOp (s : State) : State :=
  { s with m := s.m.commit s.seq.snap, seq := { s.seq with j := s.seq.j + 1#4 } }

/-- The next sub-operation is at hand: its values are in `SEQ.SNAP`. -/
def State.nextSubOp (s : State) (so : SubOp) : State := { s with seq := { s.seq with snap := so.commit } }

/-- `MODE` after the last sub-operation of a command: RESET sets `READY`, a setter leaves it (41_setters.md R81). -/
def finishMode (cmd : Command) (mode : Mode) : Mode := if cmd = Instr.reset.word then .ready else mode

/-- After the last sub-operation the command ends with `respond(OK, 0)` (41_setters.md R81), at the edge that takes the last answer
(DESIGN CHOICE: log entry 24). -/
def State.finish (s : State) : State :=
  { s with mode := finishMode s.seq.cmd s.mode, rsp := some ⟨.ok, 0#16⟩ }

/-- The sequencer after an `Ok` answer (10_state.md R22). The commit, the end of the command and its response come at the edge
that takes the answer (DESIGN CHOICE: log entry 24). -/
def answerOk (f : Frame) (s : State) : Host.Outcome State Fault Refusal :=
  match s.plan? with
  | none => .fault .sequencerLost
  | some p =>
    if s.seq.k.toNat + 1 = framesBefore p (s.seq.j.toNat + 1) then
      match p[s.seq.j.toNat + 1]? with
      | some so => .next ((s.frameOk f).commitSubOp.nextSubOp so)
      | none => .next (s.frameOk f).commitSubOp.finish
    else .next (s.frameOk f)

/-- `FrameWrite(f)` (40_packer.md R77, 30_encoding.md R55). A running command puts the frame on the free port; at every
later edge the frame is held there until the transport answers. Outside a running command the block writes no frame, and a
frame that is not the one in flight waits (20_memory.md R36; log entry 23). `tx_done` with no frame on the port is ignored
(30_encoding.md R55; log entry 21). -/
def frameWrite (f : Frame) (s : State) : Host.Outcome State Fault Refusal :=
  if s.running then
    match s.tx with
    | none => .next (s.emit f)
    | some g =>
      if g = f && s.pins.txDone then
        if s.pins.txFault then .next (s.frameFault f) else answerOk f s
      else .next s
  else .next s

/-- The environment's pins at the next edge: the next listed, or a free value (log entry 2). -/
def State.advance (s : State) : State :=
  match s.future with
  | p :: ps => { s with pins := p, future := ps, tick := s.tick + 1 }
  | [] => { s with pins := Config.freePins s.tick, tick := s.tick + 1 }

/-- A step's outcome with the environment moved on to the next edge. -/
def thenAdvance (o : Host.Outcome State Fault Refusal) : Host.Outcome State Fault Refusal :=
  match o with
  | .next s => .next s.advance
  | .fault r => .fault r
  | .refused r => .refused r

/-- What the block does at this edge (00_scope.md R6, 30_encoding.md R53 to R55, 70_reset_and_hazards.md R119). -/
def State.edge (s : State) : Edge :=
  if s.pins.rstN then
    match s.rsp with
    | some _ => if s.pins.rspReady then .deliver else .hold
    | none =>
      if s.seq.busy then
        match s.tx with
        | some f => .frame f
        | none =>
          match s.plannedFrame with
          | some f => .frame f
          | none => .lost
      else if s.pins.cmdValid then .command s.pins.cmdWord
      else .hold
  else .reset

/-- A command whose plan holds a given frame, and the frame's index `k` in it: how `withFetchWord` has that frame be the
next one the block handles (log entry 15). -/
def carrier : Instr → Instr × BitVec 4
  | .frameLeftInputVolume _ v => (.setiv .left (v.setWidth 8), 0#4)
  | .frameRightInputVolume _ v => (.setiv .right (v.setWidth 8), 0#4)
  | .frameLeftOutput1Volume v => (.setov .left (v.setWidth 8), 0#4)
  | .frameRightOutput1Volume v => (.setov .right (v.setWidth 8), 0#4)
  | .frameAdcDacControl m => (.setdm (BitVec.setWidth 8 (BitVec.ofBool m)), 0#4)
  | .frameAudioInterface wl => (.setdai (wl.setWidth 8), 0#4)
  | .frameLeftDacVolume v => (.setdv .left v, 0#4)
  | .frameRightDacVolume v => (.setdv .right v, 0#4)
  | .frameReset => (.reset, 0#4)
  | .framePowerManagement1 pl pr al ar =>
    (.setpm (PowerConfig.toByte ⟨al, ar, false, false, false, false, pl, pr⟩), 0#4)
  | .framePowerManagement2 dl dr lo ro =>
    (.setpm (PowerConfig.toByte ⟨false, false, dl, dr, lo, ro, false, false⟩), 1#4)
  | .frameLeftOutMix1 _ att => (.setmix .left ((7#3 - att).setWidth 8) 0#8, 0#4)
  | .frameLeftOutMix2 _ att => (.setmix .left 0#8 ((7#3 - att).setWidth 8), 1#4)
  | .frameRightOutMix1 _ att => (.setmix .right ((7#3 - att).setWidth 8) 0#8, 0#4)
  | .frameRightOutMix2 _ att => (.setmix .right 0#8 ((7#3 - att).setWidth 8), 1#4)
  | .reset => (.reset, 0#4)
  | .setiv ch a => (.setiv ch a, 0#4)
  | .setov ch a => (.setov ch a, 0#4)
  | .setpm a => (.setpm a, 0#4)
  | .setmix ch a b => (.setmix ch a b, 0#4)
  | .setdai a => (.setdai a, 0#4)
  | .setdv ch a => (.setdv ch a, 0#4)
  | .setdm a => (.setdm a, 0#4)
  | .getiv ch => (.getiv ch, 0#4)
  | .getov ch => (.getov ch, 0#4)
  | .getpm => (.getpm, 0#4)
  | .getmix ch => (.getmix ch, 0#4)
  | .getdv ch => (.getdv ch, 0#4)

/-- The block idle and ready for a command, with the word presented on the command port and reset released (log entry 15).
A fatal block is back in `UNINIT`, as after hardware reset, since in `FATAL` no command is accepted. -/
def State.presentCommand (s : State) (w : Command) : State :=
  { s with
    mode := if s.mode = .fatal then .uninit else s.mode,
    faultValid := false, rsp := none, tx := none, seq := { s.seq with busy := false },
    pins := { s.pins with rstN := true, cmdValid := true, cmdWord := w } }

/-- The frame in flight on the transport port, in a command whose plan holds it, and the transport's answer there with
reset released (log entry 15). -/
def State.presentFrame (s : State) (f : Frame) : State :=
  let source : Instr × BitVec 4 :=
    match decodeFrame f with
    | .ok i => carrier i
    | .error _ => (.reset, 0#4)
  let snap : Snap :=
    match plan s.cfg source.1 with
    | .ok (so :: _) => so.commit
    | .ok [] => .nothing
    | .error _ => .nothing
  { s with
    mode := if source.1 = .reset then .uninit else .ready,
    faultValid := false, rsp := none, tx := some f,
    seq := { busy := true, cmd := source.1.word, j := 0#4, k := source.2, snap := snap },
    pins := { s.pins with rstN := true, txDone := true } }

end Sys2Proof.Machine
end

