-- ==== Sys2Proof/Machine/Frames.lean ====
section
/-! DEFINITION. The fifteen frames (30_encoding.md R60 to R69): each is a `FrameWrite` of its word (40_packer.md R77). -/

namespace Sys2Proof.Machine

/-- FRAME.LeftInputVolume (30_encoding.md R60). -/
def execFrameLeftInputVolume (mute : Bool) (volume : BitVec 6) (s : State) : Host.Outcome State Fault Refusal :=
  frameWrite (Instr.frameLeftInputVolume mute volume).frame s

/-- FRAME.RightInputVolume (30_encoding.md R60). -/
def execFrameRightInputVolume (mute : Bool) (volume : BitVec 6) (s : State) : Host.Outcome State Fault Refusal :=
  frameWrite (Instr.frameRightInputVolume mute volume).frame s

/-- FRAME.LeftOutput1Volume (30_encoding.md R61). -/
def execFrameLeftOutput1Volume (volume : BitVec 7) (s : State) : Host.Outcome State Fault Refusal :=
  frameWrite (Instr.frameLeftOutput1Volume volume).frame s

/-- FRAME.RightOutput1Volume (30_encoding.md R61). -/
def execFrameRightOutput1Volume (volume : BitVec 7) (s : State) : Host.Outcome State Fault Refusal :=
  frameWrite (Instr.frameRightOutput1Volume volume).frame s

/-- FRAME.ADCDACControl (30_encoding.md R62). -/
def execFrameAdcDacControl (mute : Bool) (s : State) : Host.Outcome State Fault Refusal :=
  frameWrite (Instr.frameAdcDacControl mute).frame s

/-- FRAME.AudioInterface (30_encoding.md R63). -/
def execFrameAudioInterface (wordLength : BitVec 2) (s : State) : Host.Outcome State Fault Refusal :=
  frameWrite (Instr.frameAudioInterface wordLength).frame s

/-- FRAME.LeftDACVolume (30_encoding.md R64). -/
def execFrameLeftDacVolume (volume : BitVec 8) (s : State) : Host.Outcome State Fault Refusal :=
  frameWrite (Instr.frameLeftDacVolume volume).frame s

/-- FRAME.RightDACVolume (30_encoding.md R64). -/
def execFrameRightDacVolume (volume : BitVec 8) (s : State) : Host.Outcome State Fault Refusal :=
  frameWrite (Instr.frameRightDacVolume volume).frame s

/-- FRAME.Reset (30_encoding.md R65). -/
def execFrameReset (s : State) : Host.Outcome State Fault Refusal :=
  frameWrite Instr.frameReset.frame s

/-- FRAME.PowerManagement1 (30_encoding.md R66). -/
def execFramePowerManagement1 (pgaLeft pgaRight adcLeft adcRight : Bool) (s : State) : Host.Outcome State Fault Refusal :=
  frameWrite (Instr.framePowerManagement1 pgaLeft pgaRight adcLeft adcRight).frame s

/-- FRAME.PowerManagement2 (30_encoding.md R67). -/
def execFramePowerManagement2 (dacLeft dacRight leftOut1 rightOut1 : Bool) (s : State) : Host.Outcome State Fault Refusal :=
  frameWrite (Instr.framePowerManagement2 dacLeft dacRight leftOut1 rightOut1).frame s

/-- FRAME.LeftOutMix1 (30_encoding.md R68). -/
def execFrameLeftOutMix1 (enabled : Bool) (attenuation : BitVec 3) (s : State) : Host.Outcome State Fault Refusal :=
  frameWrite (Instr.frameLeftOutMix1 enabled attenuation).frame s

/-- FRAME.LeftOutMix2 (30_encoding.md R69). -/
def execFrameLeftOutMix2 (enabled : Bool) (attenuation : BitVec 3) (s : State) : Host.Outcome State Fault Refusal :=
  frameWrite (Instr.frameLeftOutMix2 enabled attenuation).frame s

/-- FRAME.RightOutMix1 (30_encoding.md R68). -/
def execFrameRightOutMix1 (enabled : Bool) (attenuation : BitVec 3) (s : State) : Host.Outcome State Fault Refusal :=
  frameWrite (Instr.frameRightOutMix1 enabled attenuation).frame s

/-- FRAME.RightOutMix2 (30_encoding.md R69). -/
def execFrameRightOutMix2 (enabled : Bool) (attenuation : BitVec 3) (s : State) : Host.Outcome State Fault Refusal :=
  frameWrite (Instr.frameRightOutMix2 enabled attenuation).frame s

end Sys2Proof.Machine
end

