-- ==== Sys2Proof/Machine/ResetAndGetters.lean ====
section
/-! DEFINITION. RESET (42_reset_and_getters.md R91) and the five getters (R94 to R98). -/

namespace Sys2Proof.Machine

/-- RESET: reset_codec (42_reset_and_getters.md R91). -/
def execReset (s : State) : Host.Outcome State Fault Refusal := runReset Instr.reset.word (planReset s.cfg) s

/-- GETIV: get_input_volume (R94). -/
def execGetiv (ch : Channel) (s : State) : Host.Outcome State Fault Refusal :=
  runGetter (Instr.getiv ch).word ((s.m.iv.get ch).setWidth 16) s

/-- GETOV: get_output_volume (R95). -/
def execGetov (ch : Channel) (s : State) : Host.Outcome State Fault Refusal :=
  runGetter (Instr.getov ch).word ((s.m.ov.get ch).setWidth 16) s

/-- GETPM: get_power_config (R96). -/
def execGetpm (s : State) : Host.Outcome State Fault Refusal :=
  runGetter Instr.getpm.word (s.m.pwr.toByte.setWidth 16) s

/-- GETMIX: get_mix, the right level in bits 15..8 and the left in bits 7..0 (R97). -/
def execGetmix (ch : Channel) (s : State) : Host.Outcome State Fault Refusal :=
  runGetter (Instr.getmix ch).word ((s.m.mix.get ch).right.setWidth 8 ++ (s.m.mix.get ch).left.setWidth 8) s

/-- GETDV: get_dac_volume (R98). -/
def execGetdv (ch : Channel) (s : State) : Host.Outcome State Fault Refusal :=
  runGetter (Instr.getdv ch).word ((s.m.dv.get ch).setWidth 16) s

end Sys2Proof.Machine
end

