-- ==== Sys2Proof/Machine/Setters.lean ====
section
/-! DEFINITION. The seven setters (41_setters.md R83 to R89), each `EXEC` with its own range check and plan. -/

namespace Sys2Proof.Machine

/-- SETIV: set_input_volume (41_setters.md R83). -/
def execSetiv (ch : Channel) (a : BitVec 8) (s : State) : Host.Outcome State Fault Refusal :=
  runSetter (Instr.setiv ch a).word (Instr.setiv ch a).inRange (planSetiv ch a) s

/-- SETOV: set_output_volume (R84). -/
def execSetov (ch : Channel) (a : BitVec 8) (s : State) : Host.Outcome State Fault Refusal :=
  runSetter (Instr.setov ch a).word (Instr.setov ch a).inRange (planSetov ch a) s

/-- SETPM: set_power_management (R85). -/
def execSetpm (a : BitVec 8) (s : State) : Host.Outcome State Fault Refusal :=
  runSetter (Instr.setpm a).word (Instr.setpm a).inRange (planSetpm a) s

/-- SETMIX: set_mix (R86). -/
def execSetmix (ch : Channel) (a b : BitVec 8) (s : State) : Host.Outcome State Fault Refusal :=
  runSetter (Instr.setmix ch a b).word (Instr.setmix ch a b).inRange (planSetmix ch a b) s

/-- SETDAI: set_digital_audio_interface (R87). -/
def execSetdai (a : BitVec 8) (s : State) : Host.Outcome State Fault Refusal :=
  runSetter (Instr.setdai a).word (Instr.setdai a).inRange (planSetdai a) s

/-- SETDV: set_dac_volume (R88). -/
def execSetdv (ch : Channel) (a : BitVec 8) (s : State) : Host.Outcome State Fault Refusal :=
  runSetter (Instr.setdv ch a).word (Instr.setdv ch a).inRange (planSetdv ch a) s

/-- SETDM: set_dac_mute (R89). -/
def execSetdm (a : BitVec 8) (s : State) : Host.Outcome State Fault Refusal :=
  runSetter (Instr.setdm a).word (Instr.setdm a).inRange (planSetdm a) s

end Sys2Proof.Machine
end

