-- ==== Sys2Proof/Machine/Dispatch.lean ====
section
/-! DEFINITION. The dispatch: one arm per constructor, each one call of its meaning. -/

namespace Sys2Proof.Machine

def exec (i : Instr) (s : State) : Host.Outcome State Fault Refusal :=
  match i with
  | .reset => Sys2Proof.Machine.execReset s
  | .setiv ch a => Sys2Proof.Machine.execSetiv ch a s
  | .setov ch a => Sys2Proof.Machine.execSetov ch a s
  | .setpm a => Sys2Proof.Machine.execSetpm a s
  | .setmix ch a b => Sys2Proof.Machine.execSetmix ch a b s
  | .setdai a => Sys2Proof.Machine.execSetdai a s
  | .setdv ch a => Sys2Proof.Machine.execSetdv ch a s
  | .setdm a => Sys2Proof.Machine.execSetdm a s
  | .getiv ch => Sys2Proof.Machine.execGetiv ch s
  | .getov ch => Sys2Proof.Machine.execGetov ch s
  | .getpm => Sys2Proof.Machine.execGetpm s
  | .getmix ch => Sys2Proof.Machine.execGetmix ch s
  | .getdv ch => Sys2Proof.Machine.execGetdv ch s
  | .frameLeftInputVolume mute volume => Sys2Proof.Machine.execFrameLeftInputVolume mute volume s
  | .frameRightInputVolume mute volume => Sys2Proof.Machine.execFrameRightInputVolume mute volume s
  | .frameLeftOutput1Volume volume => Sys2Proof.Machine.execFrameLeftOutput1Volume volume s
  | .frameRightOutput1Volume volume => Sys2Proof.Machine.execFrameRightOutput1Volume volume s
  | .frameAdcDacControl mute => Sys2Proof.Machine.execFrameAdcDacControl mute s
  | .frameAudioInterface wordLength => Sys2Proof.Machine.execFrameAudioInterface wordLength s
  | .frameLeftDacVolume volume => Sys2Proof.Machine.execFrameLeftDacVolume volume s
  | .frameRightDacVolume volume => Sys2Proof.Machine.execFrameRightDacVolume volume s
  | .frameReset => Sys2Proof.Machine.execFrameReset s
  | .framePowerManagement1 pgaLeft pgaRight adcLeft adcRight => Sys2Proof.Machine.execFramePowerManagement1 pgaLeft pgaRight adcLeft adcRight s
  | .framePowerManagement2 dacLeft dacRight leftOut1 rightOut1 => Sys2Proof.Machine.execFramePowerManagement2 dacLeft dacRight leftOut1 rightOut1 s
  | .frameLeftOutMix1 enabled attenuation => Sys2Proof.Machine.execFrameLeftOutMix1 enabled attenuation s
  | .frameLeftOutMix2 enabled attenuation => Sys2Proof.Machine.execFrameLeftOutMix2 enabled attenuation s
  | .frameRightOutMix1 enabled attenuation => Sys2Proof.Machine.execFrameRightOutMix1 enabled attenuation s
  | .frameRightOutMix2 enabled attenuation => Sys2Proof.Machine.execFrameRightOutMix2 enabled attenuation s

end Sys2Proof.Machine
end

