-- ==== Sys2Proof/Machine/Step.lean ====
section
/-! DEFINITION. The step: one rising edge of `clk`. -/

namespace Sys2Proof.Machine

/-- One rising edge of `clk`. The block takes reset, delivers a response, accepts the command presented to it, or writes
the frame at hand; then the environment moves on (00_scope.md R6; log entry 1). -/
def step (s : State) : Host.Outcome State Fault Refusal :=
  match s.edge with
  | .reset => .next s.hardwareReset.advance
  | .deliver => .next s.deliver.advance
  | .hold => .next s.advance
  | .command w =>
    match decodeCommand w with
    | .ok i => thenAdvance (exec i s)
    | .error _ => thenAdvance (runIllegal w s)
  | .frame f =>
    match decodeFrame f with
    | .ok i => thenAdvance (exec i s)
    | .error _ => .refused .frameNotProduced
  | .lost => .fault .sequencerLost

/-- The state with a word of the opcode table as what the next step takes: a 16-bit word is a frame on the transport port,
any other a command on the command port (log entry 15). -/
def State.withFetchWord (s : State) (nbits w : Nat) : State :=
  if nbits = 16 then s.presentFrame (BitVec.ofNat 16 w) else s.presentCommand (BitVec.ofNat 32 w)

end Sys2Proof.Machine
end

