-- ==== Sys2Proof/Safety.lean ====
section
/-! DEFINITION. What the claims speak of: the faulted and the final states, the invariant every step keeps, and the
procedure `EXEC` of 41_setters.md R81 as one function of the transport's answers; runs, and the fairness of the transport
that a claim of completion takes as its premise. -/

namespace Sys2Proof.Machine

/-- The fault that ValueOutOfRange leaves: "a **fault**: never final, and with the fault kept" (60_exceptions.md R103). -/
def State.faulted (s : State) : Prop := s.mode = .fatal

/-- The block is idle: no command in progress, no response pending (60_exceptions.md R118). -/
def State.idle (s : State) : Prop := s.seq.busy = false ∧ s.rsp = none

/-- A run may end here: idle, and not faulted. -/
def State.final (s : State) : Prop := s.idle ∧ ¬ s.faulted

/-- The sequencer stands inside the plan of the command in `SEQ.CMD`: an operation with an in-range operand, begun in the
mode that lets it run, at sub-operation `J` and at one of its frames, with its values in `SEQ.SNAP` (10_state.md R22). -/
def State.InPlan (s : State) : Prop :=
  ∃ (i : Instr) (p : List SubOp) (so : SubOp),
    decodeCommand s.seq.cmd = .ok i ∧ i.inRange = true ∧ plan s.cfg i = .ok p
      ∧ p[s.seq.j.toNat]? = some so ∧ s.seq.snap = so.commit
      ∧ framesBefore p s.seq.j.toNat ≤ s.seq.k.toNat
      ∧ s.seq.k.toNat < framesBefore p (s.seq.j.toNat + 1)
      ∧ s.mode = (if i = .reset then .uninit else .ready)

/-- The invariant of the block. -/
structure State.Inv (s : State) : Prop where
  /-- The parameter `RESET_ORDER` is an admitted order (90_conflicts.md C6). -/
  cfgWf : s.cfg.wf
  /-- The ghost registers keep their canonical form. -/
  chipWf : Memory.wf s.chip = true
  /-- "`FAULT_VALID = 1` exactly when `MODE = FATAL`" (10_state.md R15). -/
  faultIff : s.faultValid = true ↔ s.mode = .fatal
  /-- In `FATAL` no command is in progress (60_exceptions.md R103). -/
  fatalIdle : s.mode = .fatal → s.seq.busy = false
  /-- `BUSY` is 1 until the response is delivered (10_state.md R22). -/
  rspBusy : s.rsp ≠ none → s.seq.busy = true
  /-- A frame is in flight only while a command runs, and it is the planned one (10_state.md R26, 41_setters.md R81). -/
  txPlanned : s.tx ≠ none → s.running = true ∧ s.tx = s.plannedFrame
  /-- While a command runs, the sequencer stands inside its plan. -/
  inPlan : s.running = true → s.InPlan

/-- The fifteen addresses the block writes (20_memory.md R40). -/
def usedAddresses : List (BitVec 7) :=
  [0x00#7, 0x01#7, 0x02#7, 0x03#7, 0x05#7, 0x07#7, 0x0A#7, 0x0B#7, 0x0F#7, 0x19#7, 0x1A#7, 0x22#7, 0x23#7, 0x24#7, 0x25#7]

/-- What the frames of one sub-operation come to, the transport answering `Ok` (true) or `Fault` (false) to each: the
frames emitted, the index of the faulting one, and the answers left (41_setters.md R81, the inner loop). -/
def sendFrames : List Frame → List Bool → Nat → List Frame × Option Nat × List Bool
  | [], answers, _ => ([], none, answers)
  | f :: fs, true :: answers, k =>
    let r := sendFrames fs answers (k + 1)
    (f :: r.1, r.2)
  | f :: _, false :: answers, k => ([f], some k, answers)
  | f :: _, [], k => ([f], some k, [])

/-- `EXEC`'s loop over the plan (41_setters.md R81): the mirror, the frames emitted and the response it ends with. -/
def execLoop : List SubOp → List Bool → Nat → Mirror → Mirror × List Frame × Response
  | [], _, _, m => (m, [], ⟨.ok, 0#16⟩)
  | so :: rest, answers, k, m =>
    match sendFrames so.frames answers k with
    | (sent, some j, _) => (m, sent, ⟨.transportFault, BitVec.ofNat 16 j⟩)
    | (sent, none, left) =>
      let r := execLoop rest left (k + so.frames.length) (m.commit so.commit)
      (r.1, sent ++ r.2.1, r.2.2)

/-- `MODE` after `EXEC`'s loop: RESET makes it `READY` on success and leaves it `UNINIT` on a fault; a setter leaves it
(42_reset_and_getters.md R91). -/
def modeAfter (i : Instr) (mode : Mode) (r : Response) : Mode :=
  if i = .reset then (if r.status = .ok then .ready else .uninit) else mode

/-- The edges at which the transport answers each frame at the first chance: for every answer one edge at which the frame
goes out and one at which it is answered. The other pins of both are arbitrary. That a frame takes two edges then is the
model's choice (log entry 1); no answer need come so soon (`TransportFair`). -/
def answerEdges : List (Bool × Pins × Pins) → List Pins
  | [] => []
  | (ok, p, q) :: rest =>
    { p with rstN := true } :: { q with rstN := true, txDone := true, txFault := !ok } :: answerEdges rest

/-- The host presents command `i` to a block that is ready for it, no frame being in flight (which the invariant says of
every block that is ready). -/
def State.presents (s : State) (i : Instr) : Prop :=
  s.pins.rstN = true ∧ s.pins.cmdValid = true ∧ s.pins.cmdWord = i.word ∧ s.cmdReady = true ∧ s.tx = none

/-- `t` is `e` but for the environment's side: the pins, the inputs to come and the edge's number. -/
def State.isBut (t e : State) : Prop := t = { e with pins := t.pins, future := t.future, tick := t.tick }

/-- `n` steps, stopping at the first fault or refusal: the run of Host/Core.lean, over the state's own type. -/
def runFor : Nat → State → Host.Outcome State Fault Refusal
  | 0, s => .next s
  | n + 1, s =>
    match step s with
    | .next t => runFor n t
    | .fault r => .fault r
    | .refused r => .refused r

/-- After `n` edges from `s` the block is as `e` says. -/
def RunsTo (n : Nat) (s e : State) : Prop := ∃ t, runFor n s = .next t ∧ t.isBut e

/-- An unbounded run, the environment choosing the pins of every edge: each state is what the step makes of the one before,
but for the pins (00_scope.md R6; log entry 2). -/
def IsRun (σ : Nat → State) : Prop :=
  ∀ n, ∃ (u : State) (q : Pins), step (σ n) = .next u ∧ σ (n + 1) = { u with pins := q }

/-- The transport's answer step can be taken: a frame is in flight and reset is released. -/
def State.answerEnabled (s : State) : Prop := s.pins.rstN = true ∧ s.tx ≠ none

/-- Weak fairness of the transport's answer step (70_reset_and_hazards.md R126, 92_eei_decisions.md D24,
93_implementation_defined.md U9): where it can be taken from some edge on at every edge, it is taken at one of them. How
many edges that takes is not bounded. -/
def TransportFair (σ : Nat → State) : Prop :=
  ∀ n, (∀ m, n ≤ m → (σ m).answerEnabled) → ∃ m, n ≤ m ∧ (σ m).pins.txDone = true

end Sys2Proof.Machine
end

