-- ==== Sys2Proof/Certificates/Slice0/Obligations.lean ====
section
/-! DEFINITION. The statements for the provers, one obligation each; OBLIGATIONS.json names the rules each rests on. -/

open Sys2Proof Sys2Proof.Machine

/-! ### The packer -/

/-- 40_packer.md R80, R73: `mask(n)` has the low `n` bits set, all sixteen from 16 on. -/
def Obligations.MaskSetsTheLowBits : Prop :=
  ∀ n i : Nat, i < 16 → (mask n).getLsbD i = decide (i < n)

/-- 40_packer.md R78: what `pack` puts into `[start, end)` is read back by shifting and masking; no other bit is set. -/
def Obligations.PackRoundTrip : Prop :=
  ∀ v start stop : Nat, start ≤ stop → stop ≤ 16 → v ≤ 2 ^ (stop - start) - 1 →
    ∃ w, pack v start stop = .ok w
      ∧ ((w >>> start) &&& mask (stop - start)).toNat = v
      ∧ ∀ i, i < start ∨ stop ≤ i → w.getLsbD i = false

/-- 40_packer.md R79: a value wider than its field raises ValueOutOfRange. -/
def Obligations.PackFailsOnAWideValue : Prop :=
  ∀ v start stop : Nat, start ≤ stop → stop ≤ 16 → 2 ^ (stop - start) - 1 < v →
    pack v start stop = .error .valueOutOfRange

/-- 40_packer.md R74, 93_implementation_defined.md U4: outside the domain `pack` is refused, whatever the value (log entry
12). -/
def Obligations.PackOutsideItsDomainIsRefused : Prop :=
  ∀ v start stop : Nat, stop < start ∨ 16 < stop → pack v start stop = .error .outsideDomain

/-- 40_packer.md R75: fields with pairwise disjoint ranges, each value fitting, assemble to one word from which each is
read back. -/
def Obligations.DisjointFieldsReadBack : Prop :=
  ∀ fs : List Field,
    (∀ f ∈ fs, f.start ≤ f.stop ∧ f.stop ≤ 16 ∧ f.value ≤ 2 ^ (f.stop - f.start) - 1) →
    fs.Pairwise (fun f g => f.stop ≤ g.start ∨ g.stop ≤ f.start) →
    ∃ w, assemble fs = .ok w ∧ ∀ f ∈ fs, ((w >>> f.start) &&& mask (f.stop - f.start)).toNat = f.value

/-- 40_packer.md R76, 30_encoding.md R58: a frame holds its address and its payload; a wider address or payload raises
ValueOutOfRange. -/
def Obligations.FrameHoldsAddressAndPayload : Prop :=
  (∀ addr data9 : Nat, addr ≤ 127 → data9 ≤ 511 →
    ∃ f, frame addr data9 = .ok f ∧ f.toNat = addr * 512 + data9
      ∧ (frameAddr f).toNat = addr ∧ (framePayload f).toNat = data9)
  ∧ ∀ addr data9 : Nat, 127 < addr ∨ 511 < data9 → frame addr data9 = .error .valueOutOfRange

/-! ### Encodings -/

/-- Decoding the encoding of an instruction gives it back, with every operand (all twenty-eight rows). -/
def Obligations.DecodeOfEncode : Prop :=
  ∀ i : Instr, decode (encode i) = .ok i

/-- A word that decodes is the encoding of what it decodes to: no word has a second meaning, no set bit is dropped. -/
def Obligations.EncodeOfDecode : Prop :=
  ∀ (w : CodeWord) (i : Instr), decode w = .ok i → encode i = w

/-- 30_encoding.md R51: the illegal command words are those with a reserved opcode, a nonzero RSVD or a nonzero field that
must be 0. -/
def Obligations.IllegalCommandWords : Prop :=
  ∀ w : Command, decodeCommand w = .error .illegalCommand ↔
    (let op := (w.extractLsb' 28 4).toNat
     let rsvd := w.extractLsb' 17 11
     let ch := w.extractLsb' 16 1
     let b := w.extractLsb' 8 8
     let a := w.extractLsb' 0 8
     op = 0x0 ∨ op = 0xE ∨ op = 0xF ∨ rsvd ≠ 0#11
      ∨ ((op = 0x1 ∨ op = 0xB) ∧ (ch ≠ 0#1 ∨ b ≠ 0#8 ∨ a ≠ 0#8))
      ∨ ((op = 0x2 ∨ op = 0x3 ∨ op = 0x7) ∧ b ≠ 0#8)
      ∨ ((op = 0x4 ∨ op = 0x6 ∨ op = 0x8) ∧ (ch ≠ 0#1 ∨ b ≠ 0#8))
      ∨ ((op = 0x9 ∨ op = 0xA ∨ op = 0xC ∨ op = 0xD) ∧ (b ≠ 0#8 ∨ a ≠ 0#8)))

/-- 30_encoding.md R70: the frame decoder gives an instruction exactly for the frames of the layouts with their fixed and
derived bits, and calls every other 16-bit value "not produced by the block". -/
def Obligations.FramesNotProducedAreRejected : Prop :=
  (∀ (f : Frame) (i : Instr), decodeProduced f = .ok i ↔ encode i = .frame f ∧ i.wellFormed = true)
  ∧ ∀ f : Frame, (∀ i : Instr, i.wellFormed = true → encode i ≠ .frame f) → decodeProduced f = .error .notProduced

/-- Words written out from 30_encoding.md R47, R50 and R58 to R69 decode to what they stand for. -/
def Obligations.WordsDecodeAsTheSpecWritesThem : Prop :=
  decodeCommand 0b0001_00000000000_0_00000000_00000000#32 = .ok .reset
  ∧ decodeCommand 0b0010_00000000000_1_00000000_00101000#32 = .ok (.setiv .right 40#8)
  ∧ decodeCommand 0b0101_00000000000_1_00000101_00000011#32 = .ok (.setmix .right 3#8 5#8)
  ∧ decodeCommand 0b1100_00000000000_0_00000000_00000000#32 = .ok (.getmix .left)
  ∧ decodeFrame 0b0000000_1_1_0_000000#16 = .ok (.frameLeftInputVolume true 0#6)
  ∧ decodeFrame 0b0100010_1_1_000_0_011#16 = .ok (.frameLeftOutMix1 true 0#3)
  ∧ decodeFrame 0b0011001_01_1_0_0_1_0_0_0#16 = .ok (.framePowerManagement1 false false true false)

/-- 30_encoding.md R60 to R69: the word of each of the fifteen frames, as a number. -/
def Obligations.FrameLayouts : Prop :=
  (∀ (m : Bool) (v : BitVec 6),
    (Instr.frameLeftInputVolume m v).frame.toNat = 0x00 * 512 + 0x100 + m.toNat * 128 + v.toNat
    ∧ (Instr.frameRightInputVolume m v).frame.toNat = 0x01 * 512 + 0x100 + m.toNat * 128 + v.toNat)
  ∧ (∀ v : BitVec 7,
    (Instr.frameLeftOutput1Volume v).frame.toNat = 0x02 * 512 + 0x100 + v.toNat
    ∧ (Instr.frameRightOutput1Volume v).frame.toNat = 0x03 * 512 + 0x100 + v.toNat)
  ∧ (∀ m : Bool, (Instr.frameAdcDacControl m).frame.toNat = 0x05 * 512 + m.toNat * 8)
  ∧ (∀ wl : BitVec 2, (Instr.frameAudioInterface wl).frame.toNat = 0x07 * 512 + wl.toNat * 4 + 0b10)
  ∧ (∀ v : BitVec 8,
    (Instr.frameLeftDacVolume v).frame.toNat = 0x0A * 512 + 0x100 + v.toNat
    ∧ (Instr.frameRightDacVolume v).frame.toNat = 0x0B * 512 + 0x100 + v.toNat)
  ∧ Instr.frameReset.frame.toNat = 0x0F * 512
  ∧ (∀ pl pr al ar : Bool,
    (Instr.framePowerManagement1 pl pr al ar).frame.toNat
      = 0x19 * 512 + 0x0C0 + pl.toNat * 32 + pr.toNat * 16 + al.toNat * 8 + ar.toNat * 4)
  ∧ (∀ dl dr lo ro : Bool,
    (Instr.framePowerManagement2 dl dr lo ro).frame.toNat
      = 0x1A * 512 + dl.toNat * 256 + dr.toNat * 128 + lo.toNat * 64 + ro.toNat * 32)
  ∧ ∀ (e : Bool) (att : BitVec 3),
    (Instr.frameLeftOutMix1 e att).frame.toNat = 0x22 * 512 + 256 + e.toNat * 128 + att.toNat * 16 + 0b011
    ∧ (Instr.frameLeftOutMix2 e att).frame.toNat = 0x23 * 512 + e.toNat * 128 + att.toNat * 16
    ∧ (Instr.frameRightOutMix1 e att).frame.toNat = 0x24 * 512 + e.toNat * 128 + att.toNat * 16 + 0b011
    ∧ (Instr.frameRightOutMix2 e att).frame.toNat = 0x25 * 512 + 256 + e.toNat * 128 + att.toNat * 16

/-! ### Acceptance and its errors -/

/-- 30_encoding.md R53: the block is ready exactly when it is not fatal, not busy and holds no response; a block that is not
ready accepts none of the thirteen commands, and nothing changes. -/
def Obligations.NotReadyBlockAcceptsNoCommand : Prop :=
  ∀ s : State,
    (s.cmdReady = true ↔ s.mode ≠ .fatal ∧ s.seq.busy = false ∧ s.rsp = none)
    ∧ ∀ i : Instr, i.isFrame = false → s.cmdReady = false → exec i s = .next s

/-- 60_exceptions.md R105: each of the seven setters, whatever its operands, is answered `NOT_INITIALIZED` with data 0 in
`UNINIT`; it sends no frame and changes nothing else.
That the response is formed at the accepting edge (log entry 24), and that `SEQ.J`, `K` and `SNAP` are left (log entry 18),
are the model's choices. -/
def Obligations.SettersNeedAnInitializedBlock : Prop :=
  ∀ (s : State) (i : Instr), i.isSetter = true → s.cmdReady = true → s.mode = .uninit →
    exec i s = .next { s with
      seq := { s.seq with busy := true, cmd := i.word }
      rsp := some ⟨.notInitialized, 0#16⟩ }

/-- 60_exceptions.md R103, 41_setters.md R82: an operand out of range makes the block fatal with the command word recorded;
no response, no frame, no mirror write.
That the fault comes at the accepting edge (log entry 24), and that `SEQ.J`, `K` and `SNAP` are left (log entry 18), are the
model's choices. -/
def Obligations.OperandOutOfRangeIsFatal : Prop :=
  ∀ s : State, s.cmdReady = true → s.mode = .ready →
    let fatal := fun (i : Instr) => Host.Outcome.next (φ := Fault) (ρ := Refusal)
      { s with mode := .fatal, faultValid := true, faultCmd := i.word,
               seq := { s.seq with busy := false, cmd := i.word } }
    (∀ ch a, 63 < a.toNat → exec (.setiv ch a) s = fatal (.setiv ch a))
    ∧ (∀ ch a, 127 < a.toNat → exec (.setov ch a) s = fatal (.setov ch a))
    ∧ (∀ ch a b, 7 < a.toNat ∨ 7 < b.toNat → exec (.setmix ch a b) s = fatal (.setmix ch a b))
    ∧ (∀ a, 3 < a.toNat → exec (.setdai a) s = fatal (.setdai a))
    ∧ (∀ a, 1 < a.toNat → exec (.setdm a) s = fatal (.setdm a))

/-- 60_exceptions.md R106, 30_encoding.md R51: a word that is no command is answered `ILLEGAL_COMMAND` with data 0, in
`UNINIT` and `READY` alike; no frame goes out and nothing else changes.
That the response is formed at the accepting edge (log entry 24), and that `SEQ.J`, `K` and `SNAP` are left (log entry 18),
are the model's choices. -/
def Obligations.IllegalCommandIsAnswered : Prop :=
  ∀ s : State, s.cmdReady = true → s.pins.rstN = true → s.pins.cmdValid = true →
    decodeCommand s.pins.cmdWord = .error .illegalCommand →
    step s = .next (State.advance { s with
      seq := { s.seq with busy := true, cmd := s.pins.cmdWord }
      rsp := some ⟨.illegalCommand, 0#16⟩ })

/-! ### The setters -/

/-- 41_setters.md R83: SETIV in `READY` with `v ≤ 63` begins its plan; after its one frame `0x100 | (v == 0) << 7 | v` is
answered `Ok` the slot `M.IV[ch]` is `v` and the response is `OK`, and after `Fault` the mirror is untouched and the
response is `TRANSPORT_FAULT` with data 0.
The count of edges (log entries 1 and 24) and what is left in `SEQ` after the end (log entry 18) are the model's choices;
`CHIP` is the ghost of 10_state.md R25 (log entries 8 and 9). -/
def Obligations.SetivSetsOneInputVolume : Prop :=
  ∀ (s : State) (ch : Channel) (a : BitVec 8), s.cmdReady = true → s.mode = .ready → a.toNat ≤ 63 →
    let w := (Instr.setiv ch a).word
    let f := frameWord (ch.pick 0x00#7 0x01#7) (0x100#9 ||| (if a = 0#8 then 0x080#9 else 0#9) ||| a.setWidth 9)
    let snap := Snap.inputVolume ch (a.setWidth 6)
    exec (.setiv ch a) s = .next { s with seq := ⟨true, w, 0#4, 0#4, snap⟩ }
    ∧ ∀ (ok : Bool) (p q : Pins) (rest : List Pins), s.presents (.setiv ch a) →
      s.future = answerEdges [(ok, p, q)] ++ rest →
      RunsTo 3 s (if ok then
          { s with
            m := { s.m with iv := s.m.iv.set ch (a.setWidth 6) }, seq := ⟨true, w, 1#4, 1#4, snap⟩,
            rsp := some ⟨.ok, 0#16⟩, chip := s.chip.answeredOk f, wire := s.wire ++ frameBytes f }
        else
          { s with
            seq := ⟨true, w, 0#4, 0#4, snap⟩, rsp := some ⟨.transportFault, 0#16⟩,
            chip := s.chip.answeredUnknown f, wire := s.wire ++ frameBytes f })

/-- 41_setters.md R84: SETOV in `READY` with `v ≤ 127`, by its one frame `0x100 | v`.
The count of edges (log entries 1 and 24) and what is left in `SEQ` after the end (log entry 18) are the model's choices;
`CHIP` is the ghost of 10_state.md R25 (log entries 8 and 9). -/
def Obligations.SetovSetsOneOutputVolume : Prop :=
  ∀ (s : State) (ch : Channel) (a : BitVec 8), s.cmdReady = true → s.mode = .ready → a.toNat ≤ 127 →
    let w := (Instr.setov ch a).word
    let f := frameWord (ch.pick 0x02#7 0x03#7) (0x100#9 ||| a.setWidth 9)
    let snap := Snap.outputVolume ch (a.setWidth 7)
    exec (.setov ch a) s = .next { s with seq := ⟨true, w, 0#4, 0#4, snap⟩ }
    ∧ ∀ (ok : Bool) (p q : Pins) (rest : List Pins), s.presents (.setov ch a) →
      s.future = answerEdges [(ok, p, q)] ++ rest →
      RunsTo 3 s (if ok then
          { s with
            m := { s.m with ov := s.m.ov.set ch (a.setWidth 7) }, seq := ⟨true, w, 1#4, 1#4, snap⟩,
            rsp := some ⟨.ok, 0#16⟩, chip := s.chip.answeredOk f, wire := s.wire ++ frameBytes f }
        else
          { s with
            seq := ⟨true, w, 0#4, 0#4, snap⟩, rsp := some ⟨.transportFault, 0#16⟩,
            chip := s.chip.answeredUnknown f, wire := s.wire ++ frameBytes f })

/-- 41_setters.md R85: SETPM in `READY`, by word A and then word B. `M.PWR` changes only if both are answered `Ok`; a fault
of word A sends no word B.
The count of edges (log entries 1 and 24) and what is left in `SEQ` after the end (log entry 18) are the model's choices;
`CHIP` is the ghost of 10_state.md R25 (log entries 8 and 9). -/
def Obligations.SetpmSetsThePowerFlags : Prop :=
  ∀ (s : State) (a : BitVec 8), s.cmdReady = true → s.mode = .ready →
    let w := (Instr.setpm a).word
    let bit := fun (i j : Nat) => (if a.getLsbD i then BitVec.twoPow 9 j else 0#9 : BitVec 9)
    let f := frameWord 0x19#7 (0x0C0#9 ||| bit 6 5 ||| bit 7 4 ||| bit 0 3 ||| bit 1 2)
    let g := frameWord 0x1A#7 (bit 2 8 ||| bit 3 7 ||| bit 4 6 ||| bit 5 5)
    let cfg : PowerConfig :=
      ⟨a.getLsbD 0, a.getLsbD 1, a.getLsbD 2, a.getLsbD 3, a.getLsbD 4, a.getLsbD 5, a.getLsbD 6, a.getLsbD 7⟩
    let snap := Snap.power cfg
    exec (.setpm a) s = .next { s with seq := ⟨true, w, 0#4, 0#4, snap⟩ }
    ∧ ∀ (ok₁ ok₂ : Bool) (p₁ q₁ p₂ q₂ : Pins) (rest : List Pins), s.presents (.setpm a) →
      s.future = answerEdges [(ok₁, p₁, q₁), (ok₂, p₂, q₂)] ++ rest →
      (ok₁ = false → RunsTo 3 s { s with
        seq := ⟨true, w, 0#4, 0#4, snap⟩, rsp := some ⟨.transportFault, 0#16⟩,
        chip := s.chip.answeredUnknown f, wire := s.wire ++ frameBytes f })
      ∧ (ok₁ = true → ok₂ = false → RunsTo 5 s { s with
        seq := ⟨true, w, 0#4, 1#4, snap⟩, rsp := some ⟨.transportFault, 1#16⟩,
        chip := (s.chip.answeredOk f).answeredUnknown g, wire := s.wire ++ frameBytes f ++ frameBytes g })
      ∧ (ok₁ = true → ok₂ = true → RunsTo 5 s { s with
        m := { s.m with pwr := cfg }, seq := ⟨true, w, 1#4, 2#4, snap⟩, rsp := some ⟨.ok, 0#16⟩,
        chip := (s.chip.answeredOk f).answeredOk g, wire := s.wire ++ frameBytes f ++ frameBytes g })

/-- 41_setters.md R86: SETMIX in `READY` with `l ≤ 7` and `r ≤ 7`, by word 1 and then word 2, each with its attenuation.
Both levels of the one output side change, only if both words are answered `Ok`.
The count of edges (log entries 1 and 24) and what is left in `SEQ` after the end (log entry 18) are the model's choices;
`CHIP` is the ghost of 10_state.md R25 (log entries 8 and 9). -/
def Obligations.SetmixSetsOneMixer : Prop :=
  ∀ (s : State) (ch : Channel) (l r : BitVec 8), s.cmdReady = true → s.mode = .ready → l.toNat ≤ 7 → r.toNat ≤ 7 →
    let w := (Instr.setmix ch l r).word
    let f := frameWord (ch.pick 0x22#7 0x24#7)
      (ch.pick 0x100#9 0#9 ||| (if l = 0#8 then 0#9 else 0x080#9) ||| (7#9 - l.setWidth 9) <<< 4 ||| 0b011#9)
    let g := frameWord (ch.pick 0x23#7 0x25#7)
      (ch.pick 0#9 0x100#9 ||| (if r = 0#8 then 0#9 else 0x080#9) ||| (7#9 - r.setWidth 9) <<< 4)
    let snap := Snap.mix ch (l.setWidth 3) (r.setWidth 3)
    exec (.setmix ch l r) s = .next { s with seq := ⟨true, w, 0#4, 0#4, snap⟩ }
    ∧ ∀ (ok₁ ok₂ : Bool) (p₁ q₁ p₂ q₂ : Pins) (rest : List Pins), s.presents (.setmix ch l r) →
      s.future = answerEdges [(ok₁, p₁, q₁), (ok₂, p₂, q₂)] ++ rest →
      (ok₁ = false → RunsTo 3 s { s with
        seq := ⟨true, w, 0#4, 0#4, snap⟩, rsp := some ⟨.transportFault, 0#16⟩,
        chip := s.chip.answeredUnknown f, wire := s.wire ++ frameBytes f })
      ∧ (ok₁ = true → ok₂ = false → RunsTo 5 s { s with
        seq := ⟨true, w, 0#4, 1#4, snap⟩, rsp := some ⟨.transportFault, 1#16⟩,
        chip := (s.chip.answeredOk f).answeredUnknown g, wire := s.wire ++ frameBytes f ++ frameBytes g })
      ∧ (ok₁ = true → ok₂ = true → RunsTo 5 s { s with
        m := { s.m with mix := s.m.mix.set ch ⟨l.setWidth 3, r.setWidth 3⟩ }, seq := ⟨true, w, 1#4, 2#4, snap⟩,
        rsp := some ⟨.ok, 0#16⟩, chip := (s.chip.answeredOk f).answeredOk g,
        wire := s.wire ++ frameBytes f ++ frameBytes g })

/-- 41_setters.md R87: SETDAI in `READY` with `wl ≤ 3`, by its one frame `wl << 2 | 0b10`; it writes no mirror field.
The count of edges (log entries 1 and 24) and what is left in `SEQ` after the end (log entry 18) are the model's choices;
`CHIP` is the ghost of 10_state.md R25 (log entries 8 and 9). -/
def Obligations.SetdaiWritesTheAudioInterface : Prop :=
  ∀ (s : State) (a : BitVec 8), s.cmdReady = true → s.mode = .ready → a.toNat ≤ 3 →
    let w := (Instr.setdai a).word
    let f := frameWord 0x07#7 ((a.setWidth 9) <<< 2 ||| 0b10#9)
    exec (.setdai a) s = .next { s with seq := ⟨true, w, 0#4, 0#4, .nothing⟩ }
    ∧ ∀ (ok : Bool) (p q : Pins) (rest : List Pins), s.presents (.setdai a) →
      s.future = answerEdges [(ok, p, q)] ++ rest →
      RunsTo 3 s (if ok then
          { s with
            seq := ⟨true, w, 1#4, 1#4, .nothing⟩, rsp := some ⟨.ok, 0#16⟩,
            chip := s.chip.answeredOk f, wire := s.wire ++ frameBytes f }
        else
          { s with
            seq := ⟨true, w, 0#4, 0#4, .nothing⟩, rsp := some ⟨.transportFault, 0#16⟩,
            chip := s.chip.answeredUnknown f, wire := s.wire ++ frameBytes f })

/-- 41_setters.md R88: SETDV in `READY`, whatever its operand, by its one frame `0x100 | v`.
The count of edges (log entries 1 and 24) and what is left in `SEQ` after the end (log entry 18) are the model's choices;
`CHIP` is the ghost of 10_state.md R25 (log entries 8 and 9). -/
def Obligations.SetdvSetsOneDacVolume : Prop :=
  ∀ (s : State) (ch : Channel) (a : BitVec 8), s.cmdReady = true → s.mode = .ready →
    let w := (Instr.setdv ch a).word
    let f := frameWord (ch.pick 0x0A#7 0x0B#7) (0x100#9 ||| a.setWidth 9)
    let snap := Snap.dacVolume ch a
    exec (.setdv ch a) s = .next { s with seq := ⟨true, w, 0#4, 0#4, snap⟩ }
    ∧ ∀ (ok : Bool) (p q : Pins) (rest : List Pins), s.presents (.setdv ch a) →
      s.future = answerEdges [(ok, p, q)] ++ rest →
      RunsTo 3 s (if ok then
          { s with
            m := { s.m with dv := s.m.dv.set ch a }, seq := ⟨true, w, 1#4, 1#4, snap⟩,
            rsp := some ⟨.ok, 0#16⟩, chip := s.chip.answeredOk f, wire := s.wire ++ frameBytes f }
        else
          { s with
            seq := ⟨true, w, 0#4, 0#4, snap⟩, rsp := some ⟨.transportFault, 0#16⟩,
            chip := s.chip.answeredUnknown f, wire := s.wire ++ frameBytes f })

/-- 41_setters.md R89: SETDM in `READY` with `m ≤ 1`, by its one frame `m << 3`.
The count of edges (log entries 1 and 24) and what is left in `SEQ` after the end (log entry 18) are the model's choices;
`CHIP` is the ghost of 10_state.md R25 (log entries 8 and 9). -/
def Obligations.SetdmSetsTheMute : Prop :=
  ∀ (s : State) (a : BitVec 8), s.cmdReady = true → s.mode = .ready → a.toNat ≤ 1 →
    let w := (Instr.setdm a).word
    let f := frameWord 0x05#7 ((a.setWidth 9) <<< 3)
    let snap := Snap.mute (decide (a = 1#8))
    exec (.setdm a) s = .next { s with seq := ⟨true, w, 0#4, 0#4, snap⟩ }
    ∧ ∀ (ok : Bool) (p q : Pins) (rest : List Pins), s.presents (.setdm a) →
      s.future = answerEdges [(ok, p, q)] ++ rest →
      RunsTo 3 s (if ok then
          { s with
            m := { s.m with mute := decide (a = 1#8) }, seq := ⟨true, w, 1#4, 1#4, snap⟩,
            rsp := some ⟨.ok, 0#16⟩, chip := s.chip.answeredOk f, wire := s.wire ++ frameBytes f }
        else
          { s with
            seq := ⟨true, w, 0#4, 0#4, snap⟩, rsp := some ⟨.transportFault, 0#16⟩,
            chip := s.chip.answeredUnknown f, wire := s.wire ++ frameBytes f })

/-! ### RESET -/

/-- 42_reset_and_getters.md R93, R91: RESET, in `UNINIT` and in `READY`, first drops to `UNINIT` and keeps the mirror; the
first frame of its plan is the Reset frame `0x1E00`, which commits nothing.
That this comes at the accepting edge is the model's choice (log entry 24). -/
def Obligations.ResetBeginsWithTheResetFrame : Prop :=
  ∀ s : State, s.cmdReady = true → s.cfg.wf →
    ∃ t, exec .reset s = .next t
      ∧ t = { s with mode := .uninit, seq := ⟨true, 0x10000000#32, 0#4, 0#4, .nothing⟩ }
      ∧ t.plannedFrame = some 0x1E00#16

/-- 42_reset_and_getters.md R91: the twelve sub-operations and fifteen frames of RESET in the listed order, for every
`WL16_CODE`. -/
def Obligations.ResetPlanInTheListedOrder : Prop :=
  ∀ wl : BitVec 2, planReset ⟨wl, ResetSub.listed⟩ = .ok
    [⟨[0x1E00#16], .nothing⟩, ⟨[0x0180#16], .inputVolume .left 0#6⟩, ⟨[0x0380#16], .inputVolume .right 0#6⟩,
     ⟨[0x0500#16], .outputVolume .left 0#7⟩, ⟨[0x0700#16], .outputVolume .right 0#7⟩,
     ⟨[0x32C0#16, 0x3400#16], .power ⟨false, false, false, false, false, false, false, false⟩⟩,
     ⟨[0x4573#16, 0x4670#16], .mix .left 0#3 0#3⟩, ⟨[0x4873#16, 0x4B70#16], .mix .right 0#3 0#3⟩,
     ⟨[0x0E00#16 ||| (wl.setWidth 16) <<< 2 ||| 0b10#16], .nothing⟩,
     ⟨[0x1500#16], .dacVolume .left 0#8⟩, ⟨[0x1700#16], .dacVolume .right 0#8⟩, ⟨[0x0A00#16], .mute false⟩]

/-- 90_conflicts.md C6, 92_eei_decisions.md D14: in every admitted order RESET has the same twelve sub-operations, its
fifteen frames, and the Reset frame first. -/
def Obligations.ResetPlanInAnyOrder : Prop :=
  ∀ cfg : Config, cfg.wf → ∃ p q, planReset cfg = .ok p ∧ planReset { cfg with resetOrder := ResetSub.listed } = .ok q
    ∧ p.Perm q ∧ p.length = 12 ∧ (planFrames p).length = 15 ∧ p.head? = some ⟨[0x1E00#16], .nothing⟩

/-- 42_reset_and_getters.md R91: a RESET whose fifteen frames are all answered `Ok` ends with `MODE = READY`, every mirror
field zero or false and the response `OK`, in every admitted order. The count of edges, 31, is the model's choice (log
entries 1 and 24). -/
def Obligations.ResetRunMakesTheBlockReady : Prop :=
  ∀ (s : State) (xs : List (Bool × Pins × Pins)) (rest : List Pins), s.presents .reset → s.cfg.wf →
    xs.length = 15 → (∀ x ∈ xs, x.1 = true) → s.future = answerEdges xs ++ rest →
    ∃ t p, runFor 31 s = .next t ∧ planReset s.cfg = .ok p
      ∧ t.mode = .ready ∧ t.m = Mirror.zero ∧ t.rsp = some ⟨.ok, 0#16⟩ ∧ t.tx = none
      ∧ t.faultValid = s.faultValid ∧ t.faultCmd = s.faultCmd ∧ t.cfg = s.cfg
      ∧ t.wire = s.wire ++ (planFrames p).flatMap frameBytes

/-! ### The getters -/

/-- 42_reset_and_getters.md R94: GETIV answers `OK` with `M.IV[ch]`, zero-extended, in `UNINIT` and `READY`; it emits no
frame and changes nothing else.
That the response is formed at the accepting edge (log entry 24), and that `SEQ.J`, `K` and `SNAP` are left (log entry 18),
are the model's choices. -/
def Obligations.GetivAnswersTheInputVolume : Prop :=
  ∀ (s : State) (ch : Channel), s.cmdReady = true →
    (Instr.getiv ch).word &&& 0xFFFEFFFF#32 = 0x90000000#32
    ∧ ∃ d, exec (.getiv ch) s = .next { s with
        seq := { s.seq with busy := true, cmd := (Instr.getiv ch).word }, rsp := some ⟨.ok, d⟩ }
      ∧ d.toNat = (s.m.iv.get ch).toNat ∧ d.toNat ≤ 63

/-- 42_reset_and_getters.md R95: GETOV answers `OK` with `M.OV[ch]`.
That the response is formed at the accepting edge (log entry 24), and that `SEQ.J`, `K` and `SNAP` are left (log entry 18),
are the model's choices. -/
def Obligations.GetovAnswersTheOutputVolume : Prop :=
  ∀ (s : State) (ch : Channel), s.cmdReady = true →
    (Instr.getov ch).word &&& 0xFFFEFFFF#32 = 0xA0000000#32
    ∧ ∃ d, exec (.getov ch) s = .next { s with
        seq := { s.seq with busy := true, cmd := (Instr.getov ch).word }, rsp := some ⟨.ok, d⟩ }
      ∧ d.toNat = (s.m.ov.get ch).toNat ∧ d.toNat ≤ 127

/-- 42_reset_and_getters.md R96: GETPM answers `OK` with the eight flags, bit `i` being the `i`-th flag of 30_encoding.md
R49 and bits 15..8 being 0.
That the response is formed at the accepting edge (log entry 24), and that `SEQ.J`, `K` and `SNAP` are left (log entry 18),
are the model's choices. -/
def Obligations.GetpmAnswersThePowerFlags : Prop :=
  ∀ s : State, s.cmdReady = true →
    Instr.getpm.word &&& 0xFFFFFFFF#32 = 0xB0000000#32
    ∧ ∃ d, exec .getpm s = .next { s with
        seq := { s.seq with busy := true, cmd := Instr.getpm.word }, rsp := some ⟨.ok, d⟩ }
      ∧ d.getLsbD 0 = s.m.pwr.adcLeft ∧ d.getLsbD 1 = s.m.pwr.adcRight ∧ d.getLsbD 2 = s.m.pwr.dacLeft
      ∧ d.getLsbD 3 = s.m.pwr.dacRight ∧ d.getLsbD 4 = s.m.pwr.leftOut1 ∧ d.getLsbD 5 = s.m.pwr.rightOut1
      ∧ d.getLsbD 6 = s.m.pwr.pgaLeft ∧ d.getLsbD 7 = s.m.pwr.pgaRight ∧ d.toNat < 256

/-- 42_reset_and_getters.md R97: GETMIX answers `OK` with the left level of `M.MIX[ch]` in bits 7..0 and the right level in
bits 15..8.
That the response is formed at the accepting edge (log entry 24), and that `SEQ.J`, `K` and `SNAP` are left (log entry 18),
are the model's choices. -/
def Obligations.GetmixAnswersTheTwoLevels : Prop :=
  ∀ (s : State) (ch : Channel), s.cmdReady = true →
    (Instr.getmix ch).word &&& 0xFFFEFFFF#32 = 0xC0000000#32
    ∧ ∃ d, exec (.getmix ch) s = .next { s with
        seq := { s.seq with busy := true, cmd := (Instr.getmix ch).word }, rsp := some ⟨.ok, d⟩ }
      ∧ d.toNat = (s.m.mix.get ch).right.toNat * 256 + (s.m.mix.get ch).left.toNat

/-- 42_reset_and_getters.md R98: GETDV answers `OK` with `M.DV[ch]`.
That the response is formed at the accepting edge (log entry 24), and that `SEQ.J`, `K` and `SNAP` are left (log entry 18),
are the model's choices. -/
def Obligations.GetdvAnswersTheDacVolume : Prop :=
  ∀ (s : State) (ch : Channel), s.cmdReady = true →
    (Instr.getdv ch).word &&& 0xFFFEFFFF#32 = 0xD0000000#32
    ∧ ∃ d, exec (.getdv ch) s = .next { s with
        seq := { s.seq with busy := true, cmd := (Instr.getdv ch).word }, rsp := some ⟨.ok, d⟩ }
      ∧ d.toNat = (s.m.dv.get ch).toNat ∧ d.toNat ≤ 255

/-! ### The frames -/

/-- 40_packer.md R77, 20_memory.md R31: a running command with a free port puts any of the fifteen frames on it, the byte
`f[15:8]` first and `f[7:0]` second; nothing else changes. -/
def Obligations.FrameGoesOutMostSignificantByteFirst : Prop :=
  ∀ (s : State) (i : Instr), i.isFrame = true → s.running = true → s.tx = none →
    ∃ byte0 byte1, exec i s = .next { s with tx := some i.frame, wire := s.wire ++ [byte0, byte1] }
      ∧ i.frame.toNat = byte0.toNat * 256 + byte1.toNat

/-- 30_encoding.md R55: a frame on the port, any of the fifteen, is held there until `tx_done`, whatever `tx_fault` is. -/
def Obligations.FrameIsHeldUntilAnswered : Prop :=
  ∀ (s : State) (i : Instr), i.isFrame = true → s.running = true → s.tx = some i.frame → s.pins.txDone = false →
    exec i s = .next s

/-- 60_exceptions.md R101: when any of the fifteen frames is answered `Fault`, the port is dropped, the response is
`TRANSPORT_FAULT` with the frame's index, its register is unknown, and mirror, mode and sequencer stay as they are.
That the response is formed at the edge that takes the answer is the model's choice (log entry 24); `CHIP` is the ghost of
log entries 8 and 9. -/
def Obligations.FaultAnswerEndsTheCommand : Prop :=
  ∀ (s : State) (i : Instr), i.isFrame = true → s.running = true → s.tx = some i.frame → s.pins.txDone = true →
    s.pins.txFault = true →
    ∃ d, exec i s = .next { s with
        tx := none, chip := s.chip.answeredUnknown i.frame, rsp := some ⟨.transportFault, d⟩ }
      ∧ d.toNat = s.seq.k.toNat

/-- 10_state.md R22, 41_setters.md R81: when any of the fifteen frames is answered `Ok` inside the plan of the running
command, `K` moves on; the last frame of a sub-operation commits `SNAP` and moves `J` on; the next sub-operation's values
are then in `SNAP`; the last sub-operation ends the command with `OK`, and a RESET with `MODE = READY`.
The clause that ends RESET takes `K` from 14 to 15, the response pending, where R22 also says that `K` never exceeds 14: that
`K` moves on there too is the model's choice (log entry 5), and so is what stays in `SEQ` at the end (log entry 18).
That the commit, the end and its response come at the edge that takes the answer is the model's choice (log entry 24). -/
def Obligations.OkAnswerAdvancesThePlan : Prop :=
  ∀ (s : State) (i : Instr) (p : List SubOp), i.isFrame = true → s.running = true → s.tx = some i.frame →
    s.pins.txDone = true → s.pins.txFault = false → s.plan? = some p →
    let chip := s.chip.answeredOk i.frame
    let j := s.seq.j + 1#4
    let k := s.seq.k + 1#4
    let last := s.seq.k.toNat + 1 = framesBefore p (s.seq.j.toNat + 1)
    let m := s.m.commit s.seq.snap
    (¬ last → exec i s = .next { s with tx := none, chip := chip, seq := { s.seq with k := k } })
    ∧ (∀ so, last → p[s.seq.j.toNat + 1]? = some so →
        exec i s = .next { s with
          tx := none, chip := chip, m := m, seq := { s.seq with j := j, k := k, snap := so.commit } })
    ∧ (last → p[s.seq.j.toNat + 1]? = none → s.seq.cmd ≠ 0x10000000#32 →
        exec i s = .next { s with
          tx := none, chip := chip, m := m, seq := { s.seq with j := j, k := k }, rsp := some ⟨.ok, 0#16⟩ })
    ∧ (last → p[s.seq.j.toNat + 1]? = none → s.seq.cmd = 0x10000000#32 →
        exec i s = .next { s with
          mode := .ready, tx := none, chip := chip, m := m, seq := { s.seq with j := j, k := k },
          rsp := some ⟨.ok, 0#16⟩ })

/-- 10_state.md R25: after `Ok` the frame's register holds its payload and, unless the frame is the Reset frame, every
other register is known as before; after `Fault` it is unknown. After the Reset frame no other register is known (log
entry 9). The canonical form is kept. -/
def Obligations.GhostRegistersFollowTheAnswers : Prop :=
  ∀ (mem : Memory) (f : Frame), Memory.wf mem = true →
    let a := (frameAddr f).toNat
    Memory.read (Memory.answeredOk mem f) a = some (framePayload f)
    ∧ Memory.read (Memory.answeredUnknown mem f) a = none
    ∧ (∀ b, b ≠ a →
        Memory.read (Memory.answeredOk mem f) b = (if a = 0x0F then none else Memory.read mem b)
        ∧ Memory.read (Memory.answeredUnknown mem f) b = (if a = 0x0F then none else Memory.read mem b))
    ∧ Memory.wf (Memory.answeredOk mem f) = true ∧ Memory.wf (Memory.answeredUnknown mem f) = true

/-! ### The step -/

/-- A step runs the instruction its word decodes to: the command presented to the idle block, or the frame on the port (the
planned one when the port is free); the environment then moves on.
That all of an instruction's effect, its response too, comes at that one edge is the model's choice (log entry 24). -/
def Obligations.StepRunsTheDecodedInstruction : Prop :=
  ∀ (s : State) (i : Instr), s.pins.rstN = true → s.rsp = none →
    ((s.seq.busy = false ∧ s.pins.cmdValid = true ∧ decodeCommand s.pins.cmdWord = .ok i)
      ∨ (s.seq.busy = true ∧ ∃ f, (s.tx = some f ∨ s.tx = none ∧ s.plannedFrame = some f) ∧ decodeFrame f = .ok i)) →
    (∀ t, exec i s = .next t → step s = .next t.advance)
    ∧ (∀ r, exec i s = .fault r → step s = .fault r)
    ∧ (∀ r, exec i s = .refused r → step s = .refused r)

/-- 70_reset_and_hazards.md R119, R120: at an edge with `rst_n = 0` the block takes its reset state, whatever it was doing;
`SEQ.CMD` and `SEQ.SNAP` may hold anything; no frame goes out; a register whose frame was in flight is unknown; and while
`rst_n = 0` nothing is ready or valid. -/
def Obligations.HardwareResetTakesTheResetState : Prop :=
  ∀ s : State, s.pins.rstN = false →
    (∃ c x, step s = .next (State.advance { s with
        mode := .uninit, faultValid := false, faultCmd := 0x00000000#32,
        m := ⟨⟨0#6, 0#6⟩, ⟨0#7, 0#7⟩, ⟨0#8, 0#8⟩, ⟨⟨0#3, 0#3⟩, ⟨0#3, 0#3⟩⟩,
              ⟨false, false, false, false, false, false, false, false⟩, false⟩,
        seq := ⟨false, c, 0#4, 0#4, x⟩, rsp := none, tx := none,
        chip := (match s.tx with
          | none => s.chip
          | some f => s.chip.answeredUnknown f) }))
    ∧ s.outputs.cmdReady = false ∧ s.outputs.rsp = none ∧ s.outputs.tx = none

/-- 30_encoding.md R54, R57: a response is offered, its status by its code, and held stable until `rsp_ready`; then `RSP` is
empty and `BUSY` is 0. -/
def Obligations.ResponseIsHeldUntilTaken : Prop :=
  ∀ (s : State) (r : Response), s.pins.rstN = true → s.rsp = some r →
    s.outputs.rsp = some (match r.status with
        | .ok => 0b00#2
        | .transportFault => 0b01#2
        | .notInitialized => 0b10#2
        | .illegalCommand => 0b11#2, r.data)
    ∧ (s.pins.rspReady = false → step s = .next s.advance)
    ∧ (s.pins.rspReady = true → step s = .next (State.advance { s with
        rsp := none, seq := { s.seq with busy := false } }))

/-- 30_encoding.md R56, R53, R54, R55: the status outputs show `MODE`, `SEQ.BUSY` and the fault record at every edge; with
reset released `cmd_ready` shows its three conditions, `rsp_valid` whether `RSP` holds a response, and the transport port
the frame in flight. -/
def Obligations.StatusOutputsShowTheState : Prop :=
  ∀ s : State,
    s.outputs.stMode = (match s.mode with
      | .uninit => 0b00#2
      | .ready => 0b01#2
      | .fatal => 0b10#2)
    ∧ s.outputs.stBusy = s.seq.busy ∧ s.outputs.stFaultValid = s.faultValid ∧ s.outputs.stFaultCmd = s.faultCmd
    ∧ (s.pins.rstN = true →
        (s.outputs.cmdReady = true ↔ s.mode ≠ .fatal ∧ s.seq.busy = false ∧ s.rsp = none)
        ∧ (s.outputs.rsp = none ↔ s.rsp = none)
        ∧ s.outputs.tx = s.tx)

/-- 70_reset_and_hazards.md R126: the block has no timeout. While the transport does not answer and reset is not asserted,
the frame stays on the port, nothing of the block changes and no command is accepted, for as many edges as that lasts. -/
def Obligations.BlockWaitsForTheTransportForEver : Prop :=
  ∀ (n : Nat) (s : State) (f : Frame) (i : Instr), s.running = true → s.tx = some f → decodeFrame f = .ok i →
    (∀ q ∈ s.pins :: s.future, q.rstN = true ∧ q.txDone = false) → n ≤ s.future.length + 1 →
    RunsTo n s s ∧ s.seq.busy = true ∧ s.outputs.cmdReady = false ∧ s.outputs.tx = some f

/-- 70_reset_and_hazards.md R126, 92_eei_decisions.md D24: with a weakly fair transport every command completes. In a run
from a state that meets the invariant in which reset stays released, a running command comes to its response, after
however many edges; no other command has been accepted by then. -/
def Obligations.FairTransportCompletesEveryCommand : Prop :=
  ∀ σ : Nat → State, IsRun σ → TransportFair σ → (∀ n, (σ n).pins.rstN = true) →
    (σ 0).Inv → (σ 0).running = true →
    ∃ m, (σ m).rsp ≠ none ∧ (σ m).tx = none ∧ (∀ l, l < m → (σ l).running = true)
      ∧ ∀ l, l ≤ m → (σ l).seq.cmd = (σ 0).seq.cmd

/-- 30_encoding.md R53, 60_exceptions.md R109, 70_reset_and_hazards.md R119: an idle block, in any mode, to which no command
is presented stays as it is for as many edges as reset is released: it starts no RESET by itself and sends nothing. -/
def Obligations.IdleBlockStaysIdle : Prop :=
  ∀ (n : Nat) (s : State), s.idle → (∀ q ∈ s.pins :: s.future, q.rstN = true ∧ q.cmdValid = false) →
    n ≤ s.future.length + 1 → RunsTo n s s

/-- 60_exceptions.md R103, R104: the fatal block, idle, takes no command and keeps its record and all its state, for as
many edges as `rst_n` stays 1; it is never final. -/
def Obligations.FatalBlockWaitsForHardwareReset : Prop :=
  ∀ (n : Nat) (s : State), s.mode = .fatal → s.idle → (∀ q ∈ s.pins :: s.future, q.rstN = true) →
    n ≤ s.future.length + 1 → RunsTo n s s ∧ ¬ s.final ∧ s.outputs.cmdReady = false

/-! ### Rules of the whole machine -/

/-- 10_state.md R14: a step makes the block `READY` only by the `Ok` answer to the last frame of a RESET, or leaves it so.
That the change comes at that very edge is the model's choice (log entry 24). -/
def Obligations.ReadyOnlyAfterACompleteReset : Prop :=
  ∀ s t : State, step s = .next t → t.mode = .ready → s.mode ≠ .ready →
    s.running = true ∧ s.seq.cmd = 0x10000000#32 ∧ s.tx ≠ none ∧ s.pins.txDone = true ∧ s.pins.txFault = false
      ∧ t.rsp = some ⟨.ok, 0#16⟩
      ∧ ∃ p, s.plan? = some p ∧ s.seq.k.toNat + 1 = framesBefore p (s.seq.j.toNat + 1)
        ∧ p.length ≤ s.seq.j.toNat + 1

/-- 10_state.md R14, R27: a step makes the block `UNINIT` from another mode only by hardware reset, or by accepting RESET in
`READY`, which keeps the mirror.
That the change comes at that very edge is the model's choice (log entry 24). -/
def Obligations.UninitOnlyByAResetOrHardwareReset : Prop :=
  ∀ s t : State, step s = .next t → t.mode = .uninit → s.mode ≠ .uninit →
    s.pins.rstN = false
    ∨ (s.pins.rstN = true ∧ s.cmdReady = true ∧ s.mode = .ready ∧ s.pins.cmdValid = true
        ∧ s.pins.cmdWord = 0x10000000#32 ∧ t.seq.busy = true ∧ t.seq.cmd = 0x10000000#32 ∧ t.m = s.m ∧ t.wire = s.wire)

/-- 60_exceptions.md R102: a step makes the block fatal only when it accepts, in `READY`, a setter with an operand out of
range.
That the change comes at that very edge is the model's choice (log entry 24). -/
def Obligations.FatalOnlyByAnOperandOutOfRange : Prop :=
  ∀ s t : State, step s = .next t → t.mode = .fatal → s.mode ≠ .fatal →
    ∃ i, s.pins.rstN = true ∧ s.cmdReady = true ∧ s.mode = .ready ∧ s.pins.cmdValid = true
      ∧ decodeCommand s.pins.cmdWord = .ok i ∧ i.isSetter = true ∧ i.inRange = false
      ∧ t.faultValid = true ∧ t.faultCmd = s.pins.cmdWord ∧ t.m = s.m ∧ t.wire = s.wire ∧ t.rsp = none

/-- 10_state.md R27, 60_exceptions.md R104: only ValueOutOfRange, raised of a setter with an operand out of range that
`READY` accepts, writes `FAULT_VALID` and `FAULT_CMD`, and hardware reset clears them; in `FATAL` the record is never
overwritten.
That the record is written at the accepting edge is the model's choice (log entry 24). -/
def Obligations.FaultRecordIsWrittenByRangeErrorsOnly : Prop :=
  ∀ s t : State, step s = .next t →
    (s.pins.rstN = true ∧ t.faultValid = s.faultValid ∧ t.faultCmd = s.faultCmd)
    ∨ (s.pins.rstN = false ∧ t.faultValid = false ∧ t.faultCmd = 0#32)
    ∨ (∃ i, s.pins.rstN = true ∧ s.cmdReady = true ∧ s.mode = .ready ∧ s.pins.cmdValid = true
        ∧ decodeCommand s.pins.cmdWord = .ok i ∧ i.isSetter = true ∧ i.inRange = false
        ∧ t.mode = .fatal ∧ t.faultValid = true ∧ t.faultCmd = s.pins.cmdWord)

/-- 10_state.md R20, 20_memory.md R37: outside hardware reset the mirror changes only at the `Ok` answer to the last frame
of a sub-operation, and then by that sub-operation's values.
That the change comes at that very edge is the model's choice (log entry 24). -/
def Obligations.MirrorChangesOnlyWhenASubOperationSucceeds : Prop :=
  ∀ s t : State, step s = .next t → s.pins.rstN = true → t.m ≠ s.m →
    s.running = true ∧ s.tx ≠ none ∧ s.pins.txDone = true ∧ s.pins.txFault = false
      ∧ t.m = s.m.commit s.seq.snap
      ∧ ∃ p, s.plan? = some p ∧ s.seq.k.toNat + 1 = framesBefore p (s.seq.j.toNat + 1)

/-- 20_memory.md R33, R36: a step sends nothing or one whole frame, and a frame only when none is in flight. -/
def Obligations.OneWholeFrameAtATime : Prop :=
  ∀ s t : State, step s = .next t →
    t.wire = s.wire ∨ ∃ f, s.tx = none ∧ s.running = true ∧ t.tx = some f ∧ t.wire = s.wire ++ frameBytes f

/-- 20_memory.md R29, R40, 30_encoding.md R70: from a state that meets the invariant, a frame that goes out is one of the
fifteen layouts with its fixed and derived bits, at one of the fifteen addresses, and payload bit 7 is 0 at the two
output-volume addresses (30_encoding.md R61). -/
def Obligations.OnlyFramesOfTheMapGoOut : Prop :=
  ∀ s t : State, s.Inv → step s = .next t →
    t.wire = s.wire ∨ ∃ f i, t.wire = s.wire ++ frameBytes f ∧ decodeProduced f = .ok i
      ∧ frameAddr f ∈ usedAddresses
      ∧ (frameAddr f = 0x02#7 ∨ frameAddr f = 0x03#7 → f.getLsbD 7 = false)

/-- 40_packer.md R74: no pack in the block fails: an operation whose operands are in range has a plan. -/
def Obligations.InRangeOperationsHaveAPlan : Prop :=
  ∀ (cfg : Config) (i : Instr), i.inRange = true → ∃ p, plan cfg i = .ok p

/-- 10_state.md R22: while a command has a frame to send or in flight, `SEQ.K` is at most 14. -/
def Obligations.FrameIndexIsAtMostFourteen : Prop :=
  ∀ s : State, s.Inv → s.running = true → s.seq.k.toNat ≤ 14

/-- 10_state.md R25, 70_reset_and_hazards.md R124: the block never reads the codec. Two states that differ only in what is
known of the codec and in the bytes already sent step alike. -/
def Obligations.TheCodecIsNeverRead : Prop :=
  ∀ (s : State) (chip : Memory) (wire : List Byte),
    (∀ t, step s = .next t →
      ∃ chip' wire', step { s with chip := chip, wire := wire } = .next { t with chip := chip', wire := wire' })
    ∧ (∀ r, step s = .fault r → step { s with chip := chip, wire := wire } = .fault r)
    ∧ (∀ r, step s = .refused r → step { s with chip := chip, wire := wire } = .refused r)

/-- The state after reset meets the invariant. -/
def Obligations.ResetMeetsTheInvariant : Prop := State.reset.Inv

/-- Every step keeps the invariant: `FAULT_VALID = 1` exactly when `MODE = FATAL`, a frame in flight is the planned one of
the running command, the sequencer stands inside its plan, the ghost registers keep their form. -/
def Obligations.EveryStepKeepsTheInvariant : Prop :=
  ∀ s t : State, s.Inv → step s = .next t → t.Inv

/-- From a state that meets the invariant the machine never stops: no fault, no refusal. -/
def Obligations.TheMachineNeverStops : Prop :=
  ∀ s : State, s.Inv → ∃ t, step s = .next t

/-- 41_setters.md R81: running a setter in `READY`, or RESET, edge by edge comes to what the procedure `EXEC` says for the
same answers of the transport: the mirror, the bytes sent, the response and `MODE`. The count of edges, one and two more for
each frame, is the model's choice (log entries 1 and 24). -/
def Obligations.RunningACommandIsItsExecProcedure : Prop :=
  ∀ (s : State) (i : Instr) (p : List SubOp) (xs : List (Bool × Pins × Pins)) (rest : List Pins),
    s.presents i → s.cfg.wf → (i = .reset ∨ i.isSetter = true ∧ s.mode = .ready) → i.inRange = true →
    plan s.cfg i = .ok p → xs.length = (planFrames p).length → s.future = answerEdges xs ++ rest →
    let r := execLoop p (xs.map (·.1)) 0 s.m
    ∃ t, runFor (1 + 2 * r.2.1.length) s = .next t
      ∧ t.m = r.1 ∧ t.wire = s.wire ++ r.2.1.flatMap frameBytes ∧ t.rsp = some r.2.2
      ∧ t.mode = modeAfter i s.mode r.2.2 ∧ t.tx = none ∧ t.seq.busy = true ∧ t.seq.cmd = i.word
      ∧ t.faultValid = s.faultValid ∧ t.faultCmd = s.faultCmd ∧ t.cfg = s.cfg
end

