-- ==== Sys2Proof/Laws/Encoding.lean ====
section
/-! SUPPORT. The bits of encoded words, one lemma per field layout, and the fields the decoder reads from them. -/

namespace Sys2Proof

/-- The bits of a command word (30_encoding.md R47). -/
theorem commandWord_getLsbD (op : BitVec 4) (ch : Channel) (b a : BitVec 8) (i : Nat) :
    (commandWord op ch b a).getLsbD i =
      if i < 8 then a.getLsbD i
      else if i < 16 then b.getLsbD (i - 8)
      else if i < 17 then ch.bit.getLsbD (i - 16)
      else if i < 28 then false
      else op.getLsbD (i - 28) := by
  unfold commandWord
  rw [BitVec.getLsbD_append, BitVec.getLsbD_append, BitVec.getLsbD_append, BitVec.getLsbD_append]
  simp only [BitVec.getLsbD_zero]
  split_ifs <;> first | rfl | omega

/-- The bits of a frame (30_encoding.md R58). -/
theorem frameWord_getLsbD (addr : BitVec 7) (data9 : Payload) (i : Nat) :
    (frameWord addr data9).getLsbD i = if i < 9 then data9.getLsbD i else addr.getLsbD (i - 9) := by
  unfold frameWord
  rw [BitVec.getLsbD_append]

@[simp] theorem fieldA_commandWord (op : BitVec 4) (ch : Channel) (b a : BitVec 8) :
    fieldA (commandWord op ch b a) = a := by
  apply BitVec.eq_of_getLsbD_eq
  intro i hi
  simp only [fieldA, BitVec.getLsbD_extractLsb', commandWord_getLsbD]
  interval_cases i <;> simp

@[simp] theorem fieldB_commandWord (op : BitVec 4) (ch : Channel) (b a : BitVec 8) :
    fieldB (commandWord op ch b a) = b := by
  apply BitVec.eq_of_getLsbD_eq
  intro i hi
  simp only [fieldB, BitVec.getLsbD_extractLsb', commandWord_getLsbD]
  interval_cases i <;> simp

@[simp] theorem fieldCh_commandWord (op : BitVec 4) (ch : Channel) (b a : BitVec 8) :
    fieldCh (commandWord op ch b a) = ch := by
  simp only [fieldCh, commandWord_getLsbD]
  cases ch <;> rfl

/-- Masking a command word keeps or clears each operand field as a whole. -/
theorem commandWord_and (op : BitVec 4) (ch : Channel) (b a : BitVec 8) :
    commandWord op ch b a &&& 0xFFFE0000#32 = commandWord op .left 0#8 0#8
    ∧ (b = 0#8 → commandWord op ch b a &&& 0xFFFEFF00#32 = commandWord op .left 0#8 0#8)
    ∧ (ch = .left → b = 0#8 → commandWord op ch b a &&& 0xFFFFFF00#32 = commandWord op .left 0#8 0#8)
    ∧ (b = 0#8 → a = 0#8 → commandWord op ch b a &&& 0xFFFEFFFF#32 = commandWord op .left 0#8 0#8) := by
  refine ⟨?_, ?_, ?_, ?_⟩ <;> intros <;> subst_vars <;> apply BitVec.eq_of_getLsbD_eq <;> intro i hi <;>
    simp only [BitVec.getLsbD_and, commandWord_getLsbD] <;> interval_cases i <;> simp [Channel.bit]

end Sys2Proof
end

