-- ==== Sys2Proof/Laws/Memory.lean ====
section
/-! SUPPORT. The ghost registers: read after write, read after forget, and the canonical form that every operation keeps. -/

namespace Sys2Proof.Machine

/-- Every address of a canonical list is below 128, and the first is below the rest. -/
theorem Memory.wf_cons {a : Nat} {v : Payload} {rest : Memory} :
    Memory.wf ((a, v) :: rest) = true ↔ a < 128 ∧ (∀ c ∈ rest, a < c.1) ∧ Memory.wf rest = true := by
  induction rest generalizing a v with
  | nil => simp [Memory.wf]
  | cons c rest ih =>
    obtain ⟨b, w⟩ := c
    simp only [Memory.wf, Bool.and_eq_true, decide_eq_true_eq, List.forall_mem_cons]
    constructor
    · rintro ⟨hab, h⟩
      obtain ⟨hb, hall, -⟩ := ih.mp h
      exact ⟨by omega, ⟨hab, fun c hc => by have := hall c hc; omega⟩, h⟩
    · rintro ⟨-, ⟨hab, -⟩, h⟩
      exact ⟨hab, h⟩

theorem Memory.read_of_not_listed {mem : Memory} {a : Nat} (h : ∀ c ∈ mem, c.1 ≠ a) : Memory.read mem a = none := by
  induction mem with
  | nil => rfl
  | cons c rest ih =>
    rw [List.forall_mem_cons] at h
    rw [Memory.read, if_neg (fun e => h.1 e.symm), ih h.2]

theorem Memory.read_write_self (mem : Memory) (a : Nat) (v : Payload) :
    Memory.read (Memory.write mem a v) a = some v := by
  induction mem with
  | nil => simp [Memory.write, Memory.read]
  | cons c rest ih =>
    simp only [Memory.write]
    split_ifs with h h'
    · simp [Memory.read]
    · simp [Memory.read]
    · simp [Memory.read, h', ih]

theorem Memory.read_write_other (mem : Memory) {a b : Nat} (v : Payload) (h : b ≠ a) :
    Memory.read (Memory.write mem a v) b = Memory.read mem b := by
  induction mem with
  | nil => simp [Memory.write, Memory.read, h]
  | cons c rest ih =>
    simp only [Memory.write]
    split_ifs with h₁ h₂
    · simp [Memory.read, h]
    · subst h₂; simp [Memory.read, h]
    · simp [Memory.read, ih]

theorem Memory.mem_write {mem : Memory} {a : Nat} {v : Payload} {c : Nat × Payload}
    (h : c ∈ Memory.write mem a v) : c = (a, v) ∨ c ∈ mem := by
  induction mem with
  | nil => simpa [Memory.write] using h
  | cons d rest ih =>
    simp only [Memory.write] at h
    split_ifs at h
    · simpa using h
    · rcases List.mem_cons.mp h with h | h
      · exact .inl h
      · exact .inr (List.mem_cons_of_mem _ h)
    · rcases List.mem_cons.mp h with h | h
      · exact .inr (h ▸ List.mem_cons_self)
      · exact (ih h).imp_right (List.mem_cons_of_mem _)

/-- Writing keeps the canonical form. -/
theorem Memory.write_wf {mem : Memory} {a : Nat} (v : Payload) (h : Memory.wf mem = true) (ha : a < 128) :
    Memory.wf (Memory.write mem a v) = true := by
  induction mem with
  | nil => simp [Memory.write, Memory.wf, ha]
  | cons c rest ih =>
    obtain ⟨b, w⟩ := c
    obtain ⟨hb, hall, hrest⟩ := Memory.wf_cons.mp h
    simp only [Memory.write]
    split_ifs with h₁ h₂
    · refine Memory.wf_cons.mpr ⟨ha, List.forall_mem_cons.mpr ⟨h₁, fun c hc => ?_⟩, h⟩
      have := hall c hc; omega
    · subst h₂; exact Memory.wf_cons.mpr ⟨ha, hall, hrest⟩
    · refine Memory.wf_cons.mpr ⟨hb, fun c hc => ?_, ih hrest⟩
      rcases Memory.mem_write hc with rfl | hc
      · show b < a; omega
      · exact hall c hc

theorem Memory.mem_forget {mem : Memory} {a : Nat} {c : Nat × Payload} (h : c ∈ Memory.forget mem a) : c ∈ mem := by
  induction mem with
  | nil => simp [Memory.forget] at h
  | cons d rest ih =>
    simp only [Memory.forget] at h
    split_ifs at h
    · exact List.mem_cons_of_mem _ h
    · rcases List.mem_cons.mp h with h | h
      · exact h ▸ List.mem_cons_self
      · exact List.mem_cons_of_mem _ (ih h)

/-- Forgetting keeps the canonical form. -/
theorem Memory.forget_wf {mem : Memory} (a : Nat) (h : Memory.wf mem = true) :
    Memory.wf (Memory.forget mem a) = true := by
  induction mem with
  | nil => rfl
  | cons c rest ih =>
    obtain ⟨b, w⟩ := c
    obtain ⟨hb, hall, hrest⟩ := Memory.wf_cons.mp h
    simp only [Memory.forget]
    split_ifs
    · exact hrest
    · exact Memory.wf_cons.mpr ⟨hb, fun c hc => hall c (Memory.mem_forget hc), ih hrest⟩

theorem Memory.read_forget_self {mem : Memory} (a : Nat) (h : Memory.wf mem = true) :
    Memory.read (Memory.forget mem a) a = none := by
  induction mem with
  | nil => rfl
  | cons c rest ih =>
    obtain ⟨b, w⟩ := c
    obtain ⟨hb, hall, hrest⟩ := Memory.wf_cons.mp h
    simp only [Memory.forget]
    split_ifs with hab
    · subst hab
      exact Memory.read_of_not_listed fun c hc => by have := hall c hc; omega
    · simp [Memory.read, hab, ih hrest]

theorem Memory.read_forget_other (mem : Memory) {a b : Nat} (h : b ≠ a) :
    Memory.read (Memory.forget mem a) b = Memory.read mem b := by
  induction mem with
  | nil => rfl
  | cons c rest ih =>
    simp only [Memory.forget]
    split_ifs with hac
    · subst hac; simp [Memory.read, h]
    · simp [Memory.read, ih]

theorem frameAddr_lt (f : Frame) : (frameAddr f).toNat < 128 := (frameAddr f).isLt

/-- An `Ok` answer keeps the canonical form. -/
theorem Memory.answeredOk_wf {mem : Memory} (f : Frame) (h : Memory.wf mem = true) :
    Memory.wf (Memory.answeredOk mem f) = true := by
  unfold Memory.answeredOk
  split_ifs
  · exact Memory.write_wf _ rfl (frameAddr_lt f)
  · exact Memory.write_wf _ h (frameAddr_lt f)

/-- A `Fault` answer, or a frame abandoned in flight, keeps the canonical form. -/
theorem Memory.answeredUnknown_wf {mem : Memory} (f : Frame) (h : Memory.wf mem = true) :
    Memory.wf (Memory.answeredUnknown mem f) = true := by
  unfold Memory.answeredUnknown
  split_ifs
  · rfl
  · exact Memory.forget_wf _ h

/-- The reset state's ghost registers are in canonical form. -/
theorem reset_chip_wf : Memory.wf State.reset.chip = true := rfl

end Sys2Proof.Machine
end

