-- ==== Sys2Proof/Laws/PerInstr.lean ====
section
/-! SUPPORT. For every instruction: its encoding is selected by a row of the opcode table that reads it back. -/

namespace Sys2Proof.Laws.EncodingSelectsRow

/-- Some row of the table of the word's width selects the encoding of `i` and reads `i` from it. -/
def Statement (i : Instr) : Prop :=
  match encode i with
  | .command w => ∃ r ∈ commandRows, r.selects w = true ∧ r.read w = i
  | .frame f => ∃ r ∈ frameRows, r.selects f = true ∧ r.read f = i

theorem reset : Statement (.reset) := by
  refine ⟨commandRows[0], by simp [commandRows], by decide, rfl⟩

theorem setiv (ch : Channel) (a : BitVec 8) : Statement (.setiv ch a) := by
  refine ⟨commandRows[1], by simp [commandRows], ?_, by simp [commandRows]⟩
  have h := (commandWord_and 0x2#4 ch 0#8 a).2.1 rfl
  simp only [commandRows, Row.selects, List.getElem_cons_succ, List.getElem_cons_zero, h]
  decide

theorem setov (ch : Channel) (a : BitVec 8) : Statement (.setov ch a) := by
  refine ⟨commandRows[2], by simp [commandRows], ?_, by simp [commandRows]⟩
  have h := (commandWord_and 0x3#4 ch 0#8 a).2.1 rfl
  simp only [commandRows, Row.selects, List.getElem_cons_succ, List.getElem_cons_zero, h]
  decide

theorem setpm (a : BitVec 8) : Statement (.setpm a) := by
  refine ⟨commandRows[3], by simp [commandRows], ?_, by simp [commandRows]⟩
  have h := (commandWord_and 0x4#4 .left 0#8 a).2.2.1 rfl rfl
  simp only [commandRows, Row.selects, List.getElem_cons_succ, List.getElem_cons_zero, h]
  decide

theorem setmix (ch : Channel) (a : BitVec 8) (b : BitVec 8) : Statement (.setmix ch a b) := by
  refine ⟨commandRows[4], by simp [commandRows], ?_, by simp [commandRows]⟩
  have h := (commandWord_and 0x5#4 ch b a).1
  simp only [commandRows, Row.selects, List.getElem_cons_succ, List.getElem_cons_zero, h]
  decide

theorem setdai (a : BitVec 8) : Statement (.setdai a) := by
  refine ⟨commandRows[5], by simp [commandRows], ?_, by simp [commandRows]⟩
  have h := (commandWord_and 0x6#4 .left 0#8 a).2.2.1 rfl rfl
  simp only [commandRows, Row.selects, List.getElem_cons_succ, List.getElem_cons_zero, h]
  decide

theorem setdv (ch : Channel) (a : BitVec 8) : Statement (.setdv ch a) := by
  refine ⟨commandRows[6], by simp [commandRows], ?_, by simp [commandRows]⟩
  have h := (commandWord_and 0x7#4 ch 0#8 a).2.1 rfl
  simp only [commandRows, Row.selects, List.getElem_cons_succ, List.getElem_cons_zero, h]
  decide

theorem setdm (a : BitVec 8) : Statement (.setdm a) := by
  refine ⟨commandRows[7], by simp [commandRows], ?_, by simp [commandRows]⟩
  have h := (commandWord_and 0x8#4 .left 0#8 a).2.2.1 rfl rfl
  simp only [commandRows, Row.selects, List.getElem_cons_succ, List.getElem_cons_zero, h]
  decide

theorem getiv (ch : Channel) : Statement (.getiv ch) := by
  refine ⟨commandRows[8], by simp [commandRows], ?_, by simp [commandRows]⟩
  have h := (commandWord_and 0x9#4 ch 0#8 0#8).2.2.2 rfl rfl
  simp only [commandRows, Row.selects, List.getElem_cons_succ, List.getElem_cons_zero, h]
  decide

theorem getov (ch : Channel) : Statement (.getov ch) := by
  refine ⟨commandRows[9], by simp [commandRows], ?_, by simp [commandRows]⟩
  have h := (commandWord_and 0xA#4 ch 0#8 0#8).2.2.2 rfl rfl
  simp only [commandRows, Row.selects, List.getElem_cons_succ, List.getElem_cons_zero, h]
  decide

theorem getpm : Statement (.getpm) := by
  refine ⟨commandRows[10], by simp [commandRows], by decide, rfl⟩

theorem getmix (ch : Channel) : Statement (.getmix ch) := by
  refine ⟨commandRows[11], by simp [commandRows], ?_, by simp [commandRows]⟩
  have h := (commandWord_and 0xC#4 ch 0#8 0#8).2.2.2 rfl rfl
  simp only [commandRows, Row.selects, List.getElem_cons_succ, List.getElem_cons_zero, h]
  decide

theorem getdv (ch : Channel) : Statement (.getdv ch) := by
  refine ⟨commandRows[12], by simp [commandRows], ?_, by simp [commandRows]⟩
  have h := (commandWord_and 0xD#4 ch 0#8 0#8).2.2.2 rfl rfl
  simp only [commandRows, Row.selects, List.getElem_cons_succ, List.getElem_cons_zero, h]
  decide

theorem frameLeftInputVolume (mute : Bool) (volume : BitVec 6) : Statement (.frameLeftInputVolume mute volume) := by
  refine ⟨frameRows[0], by simp [frameRows], ?_, ?_⟩
  · revert mute volume; decide
  · revert mute volume; decide

theorem frameRightInputVolume (mute : Bool) (volume : BitVec 6) : Statement (.frameRightInputVolume mute volume) := by
  refine ⟨frameRows[1], by simp [frameRows], ?_, ?_⟩
  · revert mute volume; decide
  · revert mute volume; decide

theorem frameLeftOutput1Volume (volume : BitVec 7) : Statement (.frameLeftOutput1Volume volume) := by
  refine ⟨frameRows[2], by simp [frameRows], ?_, ?_⟩
  · revert volume; decide
  · revert volume; decide

theorem frameRightOutput1Volume (volume : BitVec 7) : Statement (.frameRightOutput1Volume volume) := by
  refine ⟨frameRows[3], by simp [frameRows], ?_, ?_⟩
  · revert volume; decide
  · revert volume; decide

theorem frameAdcDacControl (mute : Bool) : Statement (.frameAdcDacControl mute) := by
  refine ⟨frameRows[4], by simp [frameRows], ?_, ?_⟩
  · revert mute; decide
  · revert mute; decide

theorem frameAudioInterface (wordLength : BitVec 2) : Statement (.frameAudioInterface wordLength) := by
  refine ⟨frameRows[5], by simp [frameRows], ?_, ?_⟩
  · revert wordLength; decide
  · revert wordLength; decide

theorem frameLeftDacVolume (volume : BitVec 8) : Statement (.frameLeftDacVolume volume) := by
  refine ⟨frameRows[6], by simp [frameRows], ?_, ?_⟩
  · revert volume; decide
  · revert volume; decide

theorem frameRightDacVolume (volume : BitVec 8) : Statement (.frameRightDacVolume volume) := by
  refine ⟨frameRows[7], by simp [frameRows], ?_, ?_⟩
  · revert volume; decide
  · revert volume; decide

theorem frameReset : Statement (.frameReset) := by
  refine ⟨frameRows[8], by simp [frameRows], ?_, ?_⟩
  · decide
  · decide

theorem framePowerManagement1 (pgaLeft pgaRight adcLeft adcRight : Bool) : Statement (.framePowerManagement1 pgaLeft pgaRight adcLeft adcRight) := by
  refine ⟨frameRows[9], by simp [frameRows], ?_, ?_⟩
  · revert pgaLeft pgaRight adcLeft adcRight; decide
  · revert pgaLeft pgaRight adcLeft adcRight; decide

theorem framePowerManagement2 (dacLeft dacRight leftOut1 rightOut1 : Bool) : Statement (.framePowerManagement2 dacLeft dacRight leftOut1 rightOut1) := by
  refine ⟨frameRows[10], by simp [frameRows], ?_, ?_⟩
  · revert dacLeft dacRight leftOut1 rightOut1; decide
  · revert dacLeft dacRight leftOut1 rightOut1; decide

theorem frameLeftOutMix1 (enabled : Bool) (attenuation : BitVec 3) : Statement (.frameLeftOutMix1 enabled attenuation) := by
  refine ⟨frameRows[11], by simp [frameRows], ?_, ?_⟩
  · revert enabled attenuation; decide
  · revert enabled attenuation; decide

theorem frameLeftOutMix2 (enabled : Bool) (attenuation : BitVec 3) : Statement (.frameLeftOutMix2 enabled attenuation) := by
  refine ⟨frameRows[12], by simp [frameRows], ?_, ?_⟩
  · revert enabled attenuation; decide
  · revert enabled attenuation; decide

theorem frameRightOutMix1 (enabled : Bool) (attenuation : BitVec 3) : Statement (.frameRightOutMix1 enabled attenuation) := by
  refine ⟨frameRows[13], by simp [frameRows], ?_, ?_⟩
  · revert enabled attenuation; decide
  · revert enabled attenuation; decide

theorem frameRightOutMix2 (enabled : Bool) (attenuation : BitVec 3) : Statement (.frameRightOutMix2 enabled attenuation) := by
  refine ⟨frameRows[14], by simp [frameRows], ?_, ?_⟩
  · revert enabled attenuation; decide
  · revert enabled attenuation; decide

end Sys2Proof.Laws.EncodingSelectsRow
end

