-- ==== Sys2Proof/Laws/Plan.lean ====
section
/-! SUPPORT. The plans in closed form: the frames and the commit of every setter with an in-range operand, the
sub-operations of RESET, and the lengths of plans. -/

namespace Sys2Proof.Machine

theorem planSetiv_eq (ch : Channel) (a : BitVec 8) (h : a.toNat ≤ 63) :
    planSetiv ch a = .ok [⟨[frameWord (ch.pick 0x00#7 0x01#7)
      (0x100#9 ||| (if a = 0#8 then 0x080#9 else 0#9) ||| a.setWidth 9)], .inputVolume ch (a.setWidth 6)⟩] := by
  revert a; cases ch <;> decide +kernel

theorem planSetov_eq (ch : Channel) (a : BitVec 8) (h : a.toNat ≤ 127) :
    planSetov ch a = .ok [⟨[frameWord (ch.pick 0x02#7 0x03#7) (0x100#9 ||| a.setWidth 9)],
      .outputVolume ch (a.setWidth 7)⟩] := by
  revert a; cases ch <;> decide +kernel

theorem planSetdai_eq (a : BitVec 8) (h : a.toNat ≤ 3) :
    planSetdai a = .ok [⟨[frameWord 0x07#7 ((a.setWidth 9) <<< 2 ||| 0b10#9)], .nothing⟩] := by
  revert a; decide +kernel

theorem planSetdv_eq (ch : Channel) (a : BitVec 8) :
    planSetdv ch a = .ok [⟨[frameWord (ch.pick 0x0A#7 0x0B#7) (0x100#9 ||| a.setWidth 9)], .dacVolume ch a⟩] := by
  revert a; cases ch <;> decide +kernel

theorem planSetdm_eq (a : BitVec 8) (h : a.toNat ≤ 1) :
    planSetdm a = .ok [⟨[frameWord 0x05#7 ((a.setWidth 9) <<< 3)], .mute (decide (a = 1#8))⟩] := by
  revert a; decide +kernel

theorem planSetpm_eq (a : BitVec 8) :
    planSetpm a =
      let bit := fun (i j : Nat) => (if a.getLsbD i then BitVec.twoPow 9 j else 0#9 : BitVec 9)
      .ok [⟨[frameWord 0x19#7 (0x0C0#9 ||| bit 6 5 ||| bit 7 4 ||| bit 0 3 ||| bit 1 2),
             frameWord 0x1A#7 (bit 2 8 ||| bit 3 7 ||| bit 4 6 ||| bit 5 5)],
        .power ⟨a.getLsbD 0, a.getLsbD 1, a.getLsbD 2, a.getLsbD 3, a.getLsbD 4, a.getLsbD 5, a.getLsbD 6, a.getLsbD 7⟩⟩] := by
  revert a; decide +kernel

theorem mixWord1_eq (ch : Channel) (l : BitVec 8) (h : l.toNat ≤ 7) :
    mixWord1 ch l = .ok (frameWord (ch.pick 0x22#7 0x24#7)
      (ch.pick 0x100#9 0#9 ||| (if l = 0#8 then 0#9 else 0x080#9) ||| (7#9 - l.setWidth 9) <<< 4 ||| 0b011#9)) := by
  revert l; cases ch <;> decide +kernel

theorem mixWord2_eq (ch : Channel) (r : BitVec 8) (h : r.toNat ≤ 7) :
    mixWord2 ch r = .ok (frameWord (ch.pick 0x23#7 0x25#7)
      (ch.pick 0#9 0x100#9 ||| (if r = 0#8 then 0#9 else 0x080#9) ||| (7#9 - r.setWidth 9) <<< 4)) := by
  revert r; cases ch <;> decide +kernel

theorem planSetmix_eq (ch : Channel) (l r : BitVec 8) (hl : l.toNat ≤ 7) (hr : r.toNat ≤ 7) :
    planSetmix ch l r = .ok [⟨[
      frameWord (ch.pick 0x22#7 0x24#7)
        (ch.pick 0x100#9 0#9 ||| (if l = 0#8 then 0#9 else 0x080#9) ||| (7#9 - l.setWidth 9) <<< 4 ||| 0b011#9),
      frameWord (ch.pick 0x23#7 0x25#7)
        (ch.pick 0#9 0x100#9 ||| (if r = 0#8 then 0#9 else 0x080#9) ||| (7#9 - r.setWidth 9) <<< 4)],
      .mix ch (l.setWidth 3) (r.setWidth 3)⟩] := by
  simp only [planSetmix, collect, subMix, twoFrames, mixWord1_eq ch l hl, mixWord2_eq ch r hr]

/-- The sub-operations 1 to 11 of RESET, in closed form (42_reset_and_getters.md R91). -/
def resetSubOp (wl : BitVec 2) : ResetSub → SubOp
  | .inputVolume ch => ⟨[ch.pick 0x0180#16 0x0380#16], .inputVolume ch 0#6⟩
  | .outputVolume ch => ⟨[ch.pick 0x0500#16 0x0700#16], .outputVolume ch 0#7⟩
  | .power => ⟨[0x32C0#16, 0x3400#16], .power ⟨false, false, false, false, false, false, false, false⟩⟩
  | .mix ch => ⟨[ch.pick 0x4573#16 0x4873#16, ch.pick 0x4670#16 0x4B70#16], .mix ch 0#3 0#3⟩
  | .audioInterface => ⟨[0x0E02#16 ||| (wl.setWidth 16) <<< 2], .nothing⟩
  | .dacVolume ch => ⟨[ch.pick 0x1500#16 0x1700#16], .dacVolume ch 0#8⟩
  | .mute => ⟨[0x0A00#16], .mute false⟩

theorem subReset_eq (cfg : Config) (x : ResetSub) : subReset cfg x = .ok (resetSubOp cfg.wl16Code x) := by
  have key : ∀ wl : BitVec 2, subAudioInterface (wl.setWidth 8) = .ok ⟨[0x0E02#16 ||| (wl.setWidth 16) <<< 2], .nothing⟩ := by
    decide +kernel
  cases x with
  | inputVolume ch => cases ch <;> rfl
  | outputVolume ch => cases ch <;> rfl
  | power => rfl
  | mix ch => cases ch <;> rfl
  | audioInterface => exact key _
  | dacVolume ch => cases ch <;> rfl
  | mute => rfl

theorem collect_subReset (cfg : Config) (l : List ResetSub) :
    collect (l.map (subReset cfg)) = .ok (l.map (resetSubOp cfg.wl16Code)) := by
  induction l with
  | nil => rfl
  | cons x xs ih => simp [collect, subReset_eq, ih]

/-- The plan of RESET in any order. -/
theorem planReset_eq (cfg : Config) :
    planReset cfg = .ok (⟨[0x1E00#16], .nothing⟩ :: cfg.resetOrder.map (resetSubOp cfg.wl16Code)) := by
  have h : subSoftReset = .ok ⟨[0x1E00#16], .nothing⟩ := by decide +kernel
  simp [planReset, collect, h, collect_subReset]

theorem planFrames_length_perm {p q : List SubOp} (h : p.Perm q) : (planFrames p).length = (planFrames q).length := by
  simp only [planFrames, List.length_flatMap]
  exact (h.map _).sum_eq

@[simp] theorem framesBefore_zero (p : List SubOp) : framesBefore p 0 = 0 := rfl

theorem framesBefore_succ {p : List SubOp} {j : Nat} {so : SubOp} (h : p[j]? = some so) :
    framesBefore p (j + 1) = framesBefore p j + so.frames.length := by
  unfold framesBefore planFrames
  rw [List.take_add_one, h]; simp

theorem framesBefore_le (p : List SubOp) (j : Nat) : framesBefore p j ≤ (planFrames p).length := by
  unfold framesBefore planFrames
  conv_rhs => rw [← List.take_append_drop j p, List.flatMap_append, List.length_append]
  omega

/-- The frames from sub-operation `j` on. -/
theorem planFrames_drop {p : List SubOp} {j : Nat} {so : SubOp} (h : p[j]? = some so) :
    (planFrames p).drop (framesBefore p j) = so.frames ++ planFrames (p.drop (j + 1)) := by
  obtain ⟨hj, rfl⟩ := List.getElem?_eq_some_iff.mp h
  have h1 : planFrames p = planFrames (p.take j) ++ planFrames (p.drop j) := by
    unfold planFrames; rw [← List.flatMap_append, List.take_append_drop]
  have h2 : planFrames (p.drop j) = p[j].frames ++ planFrames (p.drop (j + 1)) := by
    rw [List.drop_eq_getElem_cons hj]; rfl
  rw [h1, framesBefore, List.drop_left, h2]

theorem plan?_eq {s : State} {i : Instr} {p : List SubOp} (h : decodeCommand s.seq.cmd = .ok i)
    (hp : plan s.cfg i = .ok p) : s.plan? = some p := by
  simp [State.plan?, h, hp, Except.toOption]

end Sys2Proof.Machine
end

