-- ==== Sys2Proof/Laws/State.lean ====
section
/-! SUPPORT. One lemma per field per update of State, so that no proof unfolds a record update. -/

namespace Sys2Proof.Machine

@[simp] theorem State.accept_mode (s : State) (w : Command) : (s.accept w).mode = s.mode := rfl
@[simp] theorem State.accept_faultValid (s : State) (w : Command) : (s.accept w).faultValid = s.faultValid := rfl
@[simp] theorem State.accept_faultCmd (s : State) (w : Command) : (s.accept w).faultCmd = s.faultCmd := rfl
@[simp] theorem State.accept_m (s : State) (w : Command) : (s.accept w).m = s.m := rfl
@[simp] theorem State.accept_seq (s : State) (w : Command) : (s.accept w).seq = { s.seq with busy := true, cmd := w } := rfl
@[simp] theorem State.accept_rsp (s : State) (w : Command) : (s.accept w).rsp = s.rsp := rfl
@[simp] theorem State.accept_tx (s : State) (w : Command) : (s.accept w).tx = s.tx := rfl
@[simp] theorem State.accept_chip (s : State) (w : Command) : (s.accept w).chip = s.chip := rfl
@[simp] theorem State.accept_wire (s : State) (w : Command) : (s.accept w).wire = s.wire := rfl
@[simp] theorem State.accept_cfg (s : State) (w : Command) : (s.accept w).cfg = s.cfg := rfl
@[simp] theorem State.accept_pins (s : State) (w : Command) : (s.accept w).pins = s.pins := rfl
@[simp] theorem State.accept_future (s : State) (w : Command) : (s.accept w).future = s.future := rfl
@[simp] theorem State.accept_tick (s : State) (w : Command) : (s.accept w).tick = s.tick := rfl

@[simp] theorem State.respond_mode (s : State) (st : Status) (d : BitVec 16) : (s.respond st d).mode = s.mode := rfl
@[simp] theorem State.respond_faultValid (s : State) (st : Status) (d : BitVec 16) : (s.respond st d).faultValid = s.faultValid := rfl
@[simp] theorem State.respond_faultCmd (s : State) (st : Status) (d : BitVec 16) : (s.respond st d).faultCmd = s.faultCmd := rfl
@[simp] theorem State.respond_m (s : State) (st : Status) (d : BitVec 16) : (s.respond st d).m = s.m := rfl
@[simp] theorem State.respond_seq (s : State) (st : Status) (d : BitVec 16) : (s.respond st d).seq = s.seq := rfl
@[simp] theorem State.respond_rsp (s : State) (st : Status) (d : BitVec 16) : (s.respond st d).rsp = some ⟨st, d⟩ := rfl
@[simp] theorem State.respond_tx (s : State) (st : Status) (d : BitVec 16) : (s.respond st d).tx = s.tx := rfl
@[simp] theorem State.respond_chip (s : State) (st : Status) (d : BitVec 16) : (s.respond st d).chip = s.chip := rfl
@[simp] theorem State.respond_wire (s : State) (st : Status) (d : BitVec 16) : (s.respond st d).wire = s.wire := rfl
@[simp] theorem State.respond_cfg (s : State) (st : Status) (d : BitVec 16) : (s.respond st d).cfg = s.cfg := rfl
@[simp] theorem State.respond_pins (s : State) (st : Status) (d : BitVec 16) : (s.respond st d).pins = s.pins := rfl
@[simp] theorem State.respond_future (s : State) (st : Status) (d : BitVec 16) : (s.respond st d).future = s.future := rfl
@[simp] theorem State.respond_tick (s : State) (st : Status) (d : BitVec 16) : (s.respond st d).tick = s.tick := rfl

@[simp] theorem State.raiseValueOutOfRange_mode (s : State) (w : Command) : (s.raiseValueOutOfRange w).mode = .fatal := rfl
@[simp] theorem State.raiseValueOutOfRange_faultValid (s : State) (w : Command) : (s.raiseValueOutOfRange w).faultValid = true := rfl
@[simp] theorem State.raiseValueOutOfRange_faultCmd (s : State) (w : Command) : (s.raiseValueOutOfRange w).faultCmd = w := rfl
@[simp] theorem State.raiseValueOutOfRange_m (s : State) (w : Command) : (s.raiseValueOutOfRange w).m = s.m := rfl
@[simp] theorem State.raiseValueOutOfRange_seq (s : State) (w : Command) : (s.raiseValueOutOfRange w).seq = { s.seq with busy := false } := rfl
@[simp] theorem State.raiseValueOutOfRange_rsp (s : State) (w : Command) : (s.raiseValueOutOfRange w).rsp = none := rfl
@[simp] theorem State.raiseValueOutOfRange_tx (s : State) (w : Command) : (s.raiseValueOutOfRange w).tx = s.tx := rfl
@[simp] theorem State.raiseValueOutOfRange_chip (s : State) (w : Command) : (s.raiseValueOutOfRange w).chip = s.chip := rfl
@[simp] theorem State.raiseValueOutOfRange_wire (s : State) (w : Command) : (s.raiseValueOutOfRange w).wire = s.wire := rfl
@[simp] theorem State.raiseValueOutOfRange_cfg (s : State) (w : Command) : (s.raiseValueOutOfRange w).cfg = s.cfg := rfl
@[simp] theorem State.raiseValueOutOfRange_pins (s : State) (w : Command) : (s.raiseValueOutOfRange w).pins = s.pins := rfl
@[simp] theorem State.raiseValueOutOfRange_future (s : State) (w : Command) : (s.raiseValueOutOfRange w).future = s.future := rfl
@[simp] theorem State.raiseValueOutOfRange_tick (s : State) (w : Command) : (s.raiseValueOutOfRange w).tick = s.tick := rfl

@[simp] theorem State.deliver_mode (s : State) : (s.deliver).mode = s.mode := rfl
@[simp] theorem State.deliver_faultValid (s : State) : (s.deliver).faultValid = s.faultValid := rfl
@[simp] theorem State.deliver_faultCmd (s : State) : (s.deliver).faultCmd = s.faultCmd := rfl
@[simp] theorem State.deliver_m (s : State) : (s.deliver).m = s.m := rfl
@[simp] theorem State.deliver_seq (s : State) : (s.deliver).seq = { s.seq with busy := false } := rfl
@[simp] theorem State.deliver_rsp (s : State) : (s.deliver).rsp = none := rfl
@[simp] theorem State.deliver_tx (s : State) : (s.deliver).tx = s.tx := rfl
@[simp] theorem State.deliver_chip (s : State) : (s.deliver).chip = s.chip := rfl
@[simp] theorem State.deliver_wire (s : State) : (s.deliver).wire = s.wire := rfl
@[simp] theorem State.deliver_cfg (s : State) : (s.deliver).cfg = s.cfg := rfl
@[simp] theorem State.deliver_pins (s : State) : (s.deliver).pins = s.pins := rfl
@[simp] theorem State.deliver_future (s : State) : (s.deliver).future = s.future := rfl
@[simp] theorem State.deliver_tick (s : State) : (s.deliver).tick = s.tick := rfl

@[simp] theorem State.startPlan_mode (s : State) (so : SubOp) : (s.startPlan so).mode = s.mode := rfl
@[simp] theorem State.startPlan_faultValid (s : State) (so : SubOp) : (s.startPlan so).faultValid = s.faultValid := rfl
@[simp] theorem State.startPlan_faultCmd (s : State) (so : SubOp) : (s.startPlan so).faultCmd = s.faultCmd := rfl
@[simp] theorem State.startPlan_m (s : State) (so : SubOp) : (s.startPlan so).m = s.m := rfl
@[simp] theorem State.startPlan_seq (s : State) (so : SubOp) : (s.startPlan so).seq = { s.seq with j := 0#4, k := 0#4, snap := so.commit } := rfl
@[simp] theorem State.startPlan_rsp (s : State) (so : SubOp) : (s.startPlan so).rsp = s.rsp := rfl
@[simp] theorem State.startPlan_tx (s : State) (so : SubOp) : (s.startPlan so).tx = s.tx := rfl
@[simp] theorem State.startPlan_chip (s : State) (so : SubOp) : (s.startPlan so).chip = s.chip := rfl
@[simp] theorem State.startPlan_wire (s : State) (so : SubOp) : (s.startPlan so).wire = s.wire := rfl
@[simp] theorem State.startPlan_cfg (s : State) (so : SubOp) : (s.startPlan so).cfg = s.cfg := rfl
@[simp] theorem State.startPlan_pins (s : State) (so : SubOp) : (s.startPlan so).pins = s.pins := rfl
@[simp] theorem State.startPlan_future (s : State) (so : SubOp) : (s.startPlan so).future = s.future := rfl
@[simp] theorem State.startPlan_tick (s : State) (so : SubOp) : (s.startPlan so).tick = s.tick := rfl

@[simp] theorem State.emit_mode (s : State) (f : Frame) : (s.emit f).mode = s.mode := rfl
@[simp] theorem State.emit_faultValid (s : State) (f : Frame) : (s.emit f).faultValid = s.faultValid := rfl
@[simp] theorem State.emit_faultCmd (s : State) (f : Frame) : (s.emit f).faultCmd = s.faultCmd := rfl
@[simp] theorem State.emit_m (s : State) (f : Frame) : (s.emit f).m = s.m := rfl
@[simp] theorem State.emit_seq (s : State) (f : Frame) : (s.emit f).seq = s.seq := rfl
@[simp] theorem State.emit_rsp (s : State) (f : Frame) : (s.emit f).rsp = s.rsp := rfl
@[simp] theorem State.emit_tx (s : State) (f : Frame) : (s.emit f).tx = some f := rfl
@[simp] theorem State.emit_chip (s : State) (f : Frame) : (s.emit f).chip = s.chip := rfl
@[simp] theorem State.emit_wire (s : State) (f : Frame) : (s.emit f).wire = s.wire ++ frameBytes f := rfl
@[simp] theorem State.emit_cfg (s : State) (f : Frame) : (s.emit f).cfg = s.cfg := rfl
@[simp] theorem State.emit_pins (s : State) (f : Frame) : (s.emit f).pins = s.pins := rfl
@[simp] theorem State.emit_future (s : State) (f : Frame) : (s.emit f).future = s.future := rfl
@[simp] theorem State.emit_tick (s : State) (f : Frame) : (s.emit f).tick = s.tick := rfl

@[simp] theorem State.frameOk_mode (s : State) (f : Frame) : (s.frameOk f).mode = s.mode := rfl
@[simp] theorem State.frameOk_faultValid (s : State) (f : Frame) : (s.frameOk f).faultValid = s.faultValid := rfl
@[simp] theorem State.frameOk_faultCmd (s : State) (f : Frame) : (s.frameOk f).faultCmd = s.faultCmd := rfl
@[simp] theorem State.frameOk_m (s : State) (f : Frame) : (s.frameOk f).m = s.m := rfl
@[simp] theorem State.frameOk_seq (s : State) (f : Frame) : (s.frameOk f).seq = { s.seq with k := s.seq.k + 1#4 } := rfl
@[simp] theorem State.frameOk_rsp (s : State) (f : Frame) : (s.frameOk f).rsp = s.rsp := rfl
@[simp] theorem State.frameOk_tx (s : State) (f : Frame) : (s.frameOk f).tx = none := rfl
@[simp] theorem State.frameOk_chip (s : State) (f : Frame) : (s.frameOk f).chip = s.chip.answeredOk f := rfl
@[simp] theorem State.frameOk_wire (s : State) (f : Frame) : (s.frameOk f).wire = s.wire := rfl
@[simp] theorem State.frameOk_cfg (s : State) (f : Frame) : (s.frameOk f).cfg = s.cfg := rfl
@[simp] theorem State.frameOk_pins (s : State) (f : Frame) : (s.frameOk f).pins = s.pins := rfl
@[simp] theorem State.frameOk_future (s : State) (f : Frame) : (s.frameOk f).future = s.future := rfl
@[simp] theorem State.frameOk_tick (s : State) (f : Frame) : (s.frameOk f).tick = s.tick := rfl

@[simp] theorem State.frameFault_mode (s : State) (f : Frame) : (s.frameFault f).mode = s.mode := rfl
@[simp] theorem State.frameFault_faultValid (s : State) (f : Frame) : (s.frameFault f).faultValid = s.faultValid := rfl
@[simp] theorem State.frameFault_faultCmd (s : State) (f : Frame) : (s.frameFault f).faultCmd = s.faultCmd := rfl
@[simp] theorem State.frameFault_m (s : State) (f : Frame) : (s.frameFault f).m = s.m := rfl
@[simp] theorem State.frameFault_seq (s : State) (f : Frame) : (s.frameFault f).seq = s.seq := rfl
@[simp] theorem State.frameFault_rsp (s : State) (f : Frame) : (s.frameFault f).rsp = some ⟨.transportFault, s.seq.k.setWidth 16⟩ := rfl
@[simp] theorem State.frameFault_tx (s : State) (f : Frame) : (s.frameFault f).tx = none := rfl
@[simp] theorem State.frameFault_chip (s : State) (f : Frame) : (s.frameFault f).chip = s.chip.answeredUnknown f := rfl
@[simp] theorem State.frameFault_wire (s : State) (f : Frame) : (s.frameFault f).wire = s.wire := rfl
@[simp] theorem State.frameFault_cfg (s : State) (f : Frame) : (s.frameFault f).cfg = s.cfg := rfl
@[simp] theorem State.frameFault_pins (s : State) (f : Frame) : (s.frameFault f).pins = s.pins := rfl
@[simp] theorem State.frameFault_future (s : State) (f : Frame) : (s.frameFault f).future = s.future := rfl
@[simp] theorem State.frameFault_tick (s : State) (f : Frame) : (s.frameFault f).tick = s.tick := rfl

@[simp] theorem State.commitSubOp_mode (s : State) : (s.commitSubOp).mode = s.mode := rfl
@[simp] theorem State.commitSubOp_faultValid (s : State) : (s.commitSubOp).faultValid = s.faultValid := rfl
@[simp] theorem State.commitSubOp_faultCmd (s : State) : (s.commitSubOp).faultCmd = s.faultCmd := rfl
@[simp] theorem State.commitSubOp_m (s : State) : (s.commitSubOp).m = s.m.commit s.seq.snap := rfl
@[simp] theorem State.commitSubOp_seq (s : State) : (s.commitSubOp).seq = { s.seq with j := s.seq.j + 1#4 } := rfl
@[simp] theorem State.commitSubOp_rsp (s : State) : (s.commitSubOp).rsp = s.rsp := rfl
@[simp] theorem State.commitSubOp_tx (s : State) : (s.commitSubOp).tx = s.tx := rfl
@[simp] theorem State.commitSubOp_chip (s : State) : (s.commitSubOp).chip = s.chip := rfl
@[simp] theorem State.commitSubOp_wire (s : State) : (s.commitSubOp).wire = s.wire := rfl
@[simp] theorem State.commitSubOp_cfg (s : State) : (s.commitSubOp).cfg = s.cfg := rfl
@[simp] theorem State.commitSubOp_pins (s : State) : (s.commitSubOp).pins = s.pins := rfl
@[simp] theorem State.commitSubOp_future (s : State) : (s.commitSubOp).future = s.future := rfl
@[simp] theorem State.commitSubOp_tick (s : State) : (s.commitSubOp).tick = s.tick := rfl

@[simp] theorem State.nextSubOp_mode (s : State) (so : SubOp) : (s.nextSubOp so).mode = s.mode := rfl
@[simp] theorem State.nextSubOp_faultValid (s : State) (so : SubOp) : (s.nextSubOp so).faultValid = s.faultValid := rfl
@[simp] theorem State.nextSubOp_faultCmd (s : State) (so : SubOp) : (s.nextSubOp so).faultCmd = s.faultCmd := rfl
@[simp] theorem State.nextSubOp_m (s : State) (so : SubOp) : (s.nextSubOp so).m = s.m := rfl
@[simp] theorem State.nextSubOp_seq (s : State) (so : SubOp) : (s.nextSubOp so).seq = { s.seq with snap := so.commit } := rfl
@[simp] theorem State.nextSubOp_rsp (s : State) (so : SubOp) : (s.nextSubOp so).rsp = s.rsp := rfl
@[simp] theorem State.nextSubOp_tx (s : State) (so : SubOp) : (s.nextSubOp so).tx = s.tx := rfl
@[simp] theorem State.nextSubOp_chip (s : State) (so : SubOp) : (s.nextSubOp so).chip = s.chip := rfl
@[simp] theorem State.nextSubOp_wire (s : State) (so : SubOp) : (s.nextSubOp so).wire = s.wire := rfl
@[simp] theorem State.nextSubOp_cfg (s : State) (so : SubOp) : (s.nextSubOp so).cfg = s.cfg := rfl
@[simp] theorem State.nextSubOp_pins (s : State) (so : SubOp) : (s.nextSubOp so).pins = s.pins := rfl
@[simp] theorem State.nextSubOp_future (s : State) (so : SubOp) : (s.nextSubOp so).future = s.future := rfl
@[simp] theorem State.nextSubOp_tick (s : State) (so : SubOp) : (s.nextSubOp so).tick = s.tick := rfl

@[simp] theorem State.finish_mode (s : State) : (s.finish).mode = finishMode s.seq.cmd s.mode := rfl
@[simp] theorem State.finish_faultValid (s : State) : (s.finish).faultValid = s.faultValid := rfl
@[simp] theorem State.finish_faultCmd (s : State) : (s.finish).faultCmd = s.faultCmd := rfl
@[simp] theorem State.finish_m (s : State) : (s.finish).m = s.m := rfl
@[simp] theorem State.finish_seq (s : State) : (s.finish).seq = s.seq := rfl
@[simp] theorem State.finish_rsp (s : State) : (s.finish).rsp = some ⟨.ok, 0#16⟩ := rfl
@[simp] theorem State.finish_tx (s : State) : (s.finish).tx = s.tx := rfl
@[simp] theorem State.finish_chip (s : State) : (s.finish).chip = s.chip := rfl
@[simp] theorem State.finish_wire (s : State) : (s.finish).wire = s.wire := rfl
@[simp] theorem State.finish_cfg (s : State) : (s.finish).cfg = s.cfg := rfl
@[simp] theorem State.finish_pins (s : State) : (s.finish).pins = s.pins := rfl
@[simp] theorem State.finish_future (s : State) : (s.finish).future = s.future := rfl
@[simp] theorem State.finish_tick (s : State) : (s.finish).tick = s.tick := rfl

@[simp] theorem State.hardwareReset_mode (s : State) : s.hardwareReset.mode = .uninit := rfl
@[simp] theorem State.hardwareReset_faultValid (s : State) : s.hardwareReset.faultValid = false := rfl
@[simp] theorem State.hardwareReset_faultCmd (s : State) : s.hardwareReset.faultCmd = 0#32 := rfl
@[simp] theorem State.hardwareReset_m (s : State) : s.hardwareReset.m = Mirror.zero := rfl
@[simp] theorem State.hardwareReset_seq (s : State) : s.hardwareReset.seq = ⟨false, Config.freeCmd s.tick, 0#4, 0#4, Config.freeSnap s.tick⟩ := rfl
@[simp] theorem State.hardwareReset_rsp (s : State) : s.hardwareReset.rsp = none := rfl
@[simp] theorem State.hardwareReset_tx (s : State) : s.hardwareReset.tx = none := rfl
@[simp] theorem State.hardwareReset_chip_idle (s : State) (h : s.tx = none) : s.hardwareReset.chip = s.chip := by
  simp [State.hardwareReset, h]

@[simp] theorem State.hardwareReset_chip_inFlight (s : State) (f : Frame) (h : s.tx = some f) :
    s.hardwareReset.chip = s.chip.answeredUnknown f := by
  simp [State.hardwareReset, h]

@[simp] theorem State.hardwareReset_wire (s : State) : s.hardwareReset.wire = s.wire := rfl
@[simp] theorem State.hardwareReset_cfg (s : State) : s.hardwareReset.cfg = s.cfg := rfl
@[simp] theorem State.hardwareReset_pins (s : State) : s.hardwareReset.pins = s.pins := rfl
@[simp] theorem State.hardwareReset_future (s : State) : s.hardwareReset.future = s.future := rfl
@[simp] theorem State.hardwareReset_tick (s : State) : s.hardwareReset.tick = s.tick := rfl

@[simp] theorem State.advance_mode (s : State) : s.advance.mode = s.mode := by
  unfold State.advance; cases s.future <;> rfl

@[simp] theorem State.advance_faultValid (s : State) : s.advance.faultValid = s.faultValid := by
  unfold State.advance; cases s.future <;> rfl

@[simp] theorem State.advance_faultCmd (s : State) : s.advance.faultCmd = s.faultCmd := by
  unfold State.advance; cases s.future <;> rfl

@[simp] theorem State.advance_m (s : State) : s.advance.m = s.m := by
  unfold State.advance; cases s.future <;> rfl

@[simp] theorem State.advance_seq (s : State) : s.advance.seq = s.seq := by
  unfold State.advance; cases s.future <;> rfl

@[simp] theorem State.advance_rsp (s : State) : s.advance.rsp = s.rsp := by
  unfold State.advance; cases s.future <;> rfl

@[simp] theorem State.advance_tx (s : State) : s.advance.tx = s.tx := by
  unfold State.advance; cases s.future <;> rfl

@[simp] theorem State.advance_chip (s : State) : s.advance.chip = s.chip := by
  unfold State.advance; cases s.future <;> rfl

@[simp] theorem State.advance_wire (s : State) : s.advance.wire = s.wire := by
  unfold State.advance; cases s.future <;> rfl

@[simp] theorem State.advance_cfg (s : State) : s.advance.cfg = s.cfg := by
  unfold State.advance; cases s.future <;> rfl

@[simp] theorem State.advance_tick (s : State) : s.advance.tick = s.tick + 1 := by
  unfold State.advance; cases s.future <;> rfl

/-- With inputs listed, the next edge has the first of them. -/
theorem State.advance_of_future {s : State} {p : Pins} {ps : List Pins} (h : s.future = p :: ps) :
    s.advance = { s with pins := p, future := ps, tick := s.tick + 1 } := by
  simp [State.advance, h]

/-- With no inputs listed, the next edge has free ones. -/
theorem State.advance_of_no_future {s : State} (h : s.future = []) :
    s.advance = { s with pins := Config.freePins s.tick, tick := s.tick + 1 } := by
  simp [State.advance, h]

@[simp] theorem thenAdvance_next (s : State) : thenAdvance (.next s) = .next s.advance := rfl
@[simp] theorem thenAdvance_fault (r : Fault) : thenAdvance (.fault r) = .fault r := rfl
@[simp] theorem thenAdvance_refused (r : Refusal) : thenAdvance (.refused r) = .refused r := rfl

/-- What it takes for a step's outcome to be a next state. -/
theorem thenAdvance_eq_next {o : Host.Outcome State Fault Refusal} {t : State} :
    thenAdvance o = .next t ↔ ∃ u, o = .next u ∧ t = u.advance := by
  cases o <;> simp [eq_comm]

/-- The readiness of 30_encoding.md R53 as three facts. -/
theorem State.cmdReady_iff (s : State) :
    s.cmdReady = true ↔ s.mode ≠ .fatal ∧ s.seq.busy = false ∧ s.rsp = none := by
  simp [State.cmdReady, and_assoc]

/-- A running command as two facts. -/
theorem State.running_iff (s : State) : s.running = true ↔ s.seq.busy = true ∧ s.rsp = none := by
  simp [State.running]

@[simp] theorem State.advance_running (s : State) : s.advance.running = s.running := by simp [State.running]
@[simp] theorem State.advance_cmdReady (s : State) : s.advance.cmdReady = s.cmdReady := by simp [State.cmdReady]
@[simp] theorem State.advance_plan? (s : State) : s.advance.plan? = s.plan? := by simp [State.plan?]
@[simp] theorem State.advance_plannedFrame (s : State) : s.advance.plannedFrame = s.plannedFrame := by
  simp [State.plannedFrame]

theorem finishMode_of_reset {cmd : Command} (mode : Mode) (h : cmd = Instr.reset.word) : finishMode cmd mode = .ready :=
  if_pos h

theorem finishMode_of_setter {cmd : Command} (mode : Mode) (h : cmd ≠ Instr.reset.word) : finishMode cmd mode = mode :=
  if_neg h

@[simp] theorem ChannelPair.get_set_self {α : Type} (p : ChannelPair α) (ch : Channel) (v : α) :
    (p.set ch v).get ch = v := by cases ch <;> rfl

theorem ChannelPair.get_set_other {α : Type} (p : ChannelPair α) {c d : Channel} (v : α) (h : c ≠ d) :
    (p.set c v).get d = p.get d := by cases c <;> cases d <;> first | rfl | exact absurd rfl h

end Sys2Proof.Machine
end

