-- ==== Sys2Proof/Laws/Step.lean ====
section
/-! SUPPORT. What each shared operation, each meaning and one step can do, said once: the inversion lemmas the proofs
cite. -/

namespace Sys2Proof.Machine

/-- Each of the fifteen frames is a FrameWrite of its word. -/
theorem exec_of_isFrame {i : Instr} (h : i.isFrame = true) (s : State) : exec i s = frameWrite i.frame s := by
  cases i <;> first | rfl | (simp [Instr.isFrame, encode] at h)

/-- Each of the seven setters runs its range check and its plan. -/
theorem exec_of_isSetter {i : Instr} (h : i.isSetter = true) (s : State) :
    exec i s = runSetter i.word i.inRange (plan s.cfg i) s := by
  cases i <;> first | rfl | (simp [Instr.isSetter] at h)

theorem exec_reset (s : State) : exec .reset s = runReset Instr.reset.word (plan s.cfg .reset) s := rfl

/-- Each of the five getters answers with some value of the mirror. -/
theorem exec_of_isGetter {i : Instr} (h : i.isGetter = true) (s : State) :
    ∃ value, exec i s = runGetter i.word value s := by
  cases i <;> first | exact ⟨_, rfl⟩ | (simp [Instr.isGetter] at h)

/-- Every instruction is RESET, a setter, a getter or a frame. -/
theorem instr_kinds (i : Instr) : i = .reset ∨ i.isSetter = true ∨ i.isGetter = true ∨ i.isFrame = true := by
  cases i <;> simp [Instr.isSetter, Instr.isGetter, Instr.isFrame, encode]

/-- What accepting the command `i` can come to. -/
inductive Accepted (s : State) (i : Instr) : State → Prop where
  | notInitialized (h : i.isSetter = true) (hm : s.mode = .uninit) :
      Accepted s i ((s.accept i.word).respond .notInitialized 0#16)
  | outOfRange (h : i.isSetter = true) (hm : s.mode ≠ .uninit) (hr : i.inRange = false) :
      Accepted s i ((s.accept i.word).raiseValueOutOfRange i.word)
  | setterFails (h : i.isSetter = true) (hm : s.mode ≠ .uninit) (hr : i.inRange = true)
      (hp : plan s.cfg i = .error .valueOutOfRange) :
      Accepted s i ((s.accept i.word).raiseValueOutOfRange i.word)
  | setterEmpty (h : i.isSetter = true) (hm : s.mode ≠ .uninit) (hr : i.inRange = true) (hp : plan s.cfg i = .ok []) :
      Accepted s i ((s.accept i.word).respond .ok 0#16)
  | setterBegins (so : SubOp) (rest : List SubOp) (h : i.isSetter = true) (hm : s.mode ≠ .uninit)
      (hr : i.inRange = true) (hp : plan s.cfg i = .ok (so :: rest)) :
      Accepted s i ((s.accept i.word).startPlan so)
  | resetFails (h : i = .reset) (hp : plan s.cfg i = .error .valueOutOfRange) :
      Accepted s i (State.raiseValueOutOfRange { s.accept i.word with mode := .uninit } i.word)
  | resetEmpty (h : i = .reset) (hp : plan s.cfg i = .ok []) :
      Accepted s i (State.respond { s.accept i.word with mode := .uninit } .ok 0#16)
  | resetBegins (so : SubOp) (rest : List SubOp) (h : i = .reset) (hp : plan s.cfg i = .ok (so :: rest)) :
      Accepted s i (State.startPlan { s.accept i.word with mode := .uninit } so)
  | got (value : BitVec 16) (h : i.isGetter = true) : Accepted s i ((s.accept i.word).respond .ok value)

/-- A command that is accepted comes to one of these; one that is not leaves the state. -/
theorem exec_command_cases {s t : State} {i : Instr} (hi : i.isFrame = false) (h : exec i s = .next t) :
    (s.cmdReady = false ∧ t = s) ∨ (s.cmdReady = true ∧ Accepted s i t) := by
  rcases Bool.eq_false_or_eq_true s.cmdReady with hs | hs
  · refine .inr ⟨hs, ?_⟩
    rcases instr_kinds i with rfl | hk | hk | hk
    · rw [exec_reset, runReset, if_pos hs] at h
      cases hp : plan s.cfg .reset with
      | error e => cases e <;> simp [runPlan, hp] at h; subst h; exact .resetFails rfl hp
      | ok p => cases p <;> simp [runPlan, hp] at h <;> subst h; exacts [.resetEmpty rfl hp, .resetBegins _ _ rfl hp]
    · rw [exec_of_isSetter hk, runSetter, if_pos hs] at h
      split_ifs at h with hm hr
      · simp only [Host.Outcome.next.injEq] at h; subst h; exact .notInitialized hk hm
      · cases hp : plan s.cfg i with
        | error e => cases e <;> simp [runPlan, hp] at h; subst h; exact .setterFails hk hm hr hp
        | ok p =>
          cases p <;> simp [runPlan, hp] at h <;> subst h
          exacts [.setterEmpty hk hm hr hp, .setterBegins _ _ hk hm hr hp]
      · simp only [Host.Outcome.next.injEq] at h; subst h; exact .outOfRange hk hm (by simpa using hr)
    · obtain ⟨v, hv⟩ := exec_of_isGetter hk s
      rw [hv, runGetter, if_pos hs, Host.Outcome.next.injEq] at h
      subst h; exact .got v hk
    · exact absurd hk (by simp [hi])
  · refine .inl ⟨hs, ?_⟩
    rcases instr_kinds i with rfl | hk | hk | hk
    · rw [exec_reset, runReset, if_neg (by simp [hs]), Host.Outcome.next.injEq] at h; exact h.symm
    · rw [exec_of_isSetter hk, runSetter, if_neg (by simp [hs]), Host.Outcome.next.injEq] at h; exact h.symm
    · obtain ⟨v, hv⟩ := exec_of_isGetter hk s
      rw [hv, runGetter, if_neg (by simp [hs]), Host.Outcome.next.injEq] at h; exact h.symm
    · exact absurd hk (by simp [hi])

/-- What an `Ok` answer to frame `f` can come to. -/
inductive AnsweredOk (s : State) (f : Frame) : State → Prop where
  | inside (p : List SubOp) (hp : s.plan? = some p)
      (hk : s.seq.k.toNat + 1 ≠ framesBefore p (s.seq.j.toNat + 1)) : AnsweredOk s f (s.frameOk f)
  | nextSubOp (p : List SubOp) (so : SubOp) (hp : s.plan? = some p)
      (hk : s.seq.k.toNat + 1 = framesBefore p (s.seq.j.toNat + 1)) (hso : p[s.seq.j.toNat + 1]? = some so) :
      AnsweredOk s f ((s.frameOk f).commitSubOp.nextSubOp so)
  | finish (p : List SubOp) (hp : s.plan? = some p)
      (hk : s.seq.k.toNat + 1 = framesBefore p (s.seq.j.toNat + 1)) (hso : p[s.seq.j.toNat + 1]? = none) :
      AnsweredOk s f (s.frameOk f).commitSubOp.finish

theorem answerOk_cases {s t : State} {f : Frame} (h : answerOk f s = .next t) : AnsweredOk s f t := by
  unfold answerOk at h
  cases hp : s.plan? with
  | none => simp [hp] at h
  | some p =>
    simp only [hp] at h
    split_ifs at h with hk
    · cases hso : p[s.seq.j.toNat + 1]? with
      | none => simp only [hso, Host.Outcome.next.injEq] at h; subst h; exact .finish p hp hk hso
      | some so => simp only [hso, Host.Outcome.next.injEq] at h; subst h; exact .nextSubOp p so hp hk hso
    · simp only [Host.Outcome.next.injEq] at h; subst h; exact .inside p hp hk

/-- What FrameWrite can come to. -/
theorem frameWrite_cases {s t : State} {f : Frame} (h : frameWrite f s = .next t) :
    (t = s ∧ (s.running = false ∨ ∃ g, s.tx = some g ∧ (g ≠ f ∨ s.pins.txDone = false)))
    ∨ (s.running = true ∧ s.tx = none ∧ t = s.emit f)
    ∨ (s.running = true ∧ s.tx = some f ∧ s.pins.txDone = true ∧ s.pins.txFault = true ∧ t = s.frameFault f)
    ∨ (s.running = true ∧ s.tx = some f ∧ s.pins.txDone = true ∧ s.pins.txFault = false ∧ AnsweredOk s f t) := by
  unfold frameWrite at h
  by_cases hr : s.running = true
  · rw [if_pos hr] at h
    cases htx : s.tx with
    | none => simp only [htx, Host.Outcome.next.injEq] at h; exact .inr (.inl ⟨hr, rfl, h.symm⟩)
    | some g =>
      simp only [htx] at h
      by_cases hg : (g = f && s.pins.txDone) = true
      · rw [if_pos hg] at h
        simp only [Bool.and_eq_true, decide_eq_true_eq] at hg
        by_cases hf : s.pins.txFault = true
        · rw [if_pos hf, Host.Outcome.next.injEq] at h
          exact .inr (.inr (.inl ⟨hr, by rw [hg.1], hg.2, hf, h.symm⟩))
        · rw [if_neg hf] at h
          exact .inr (.inr (.inr ⟨hr, by rw [hg.1], hg.2, by simpa using hf, answerOk_cases h⟩))
      · rw [if_neg hg, Host.Outcome.next.injEq] at h
        refine .inl ⟨h.symm, .inr ⟨g, rfl, ?_⟩⟩
        by_cases hgf : g = f
        · exact .inr (by simpa [hgf] using hg)
        · exact .inl hgf
  · rw [if_neg hr, Host.Outcome.next.injEq] at h; exact .inl ⟨h.symm, .inl (by simpa using hr)⟩

/-- Why an edge with reset released changes nothing: the response is not taken, no command is presented to an idle block,
the block is idle but not ready, or the frame in flight is not answered (by EncodeOfDecode it is the decoded frame's). -/
inductive Waits (s : State) : Prop where
  | response (r : Response) (hr : s.rsp = some r) (hy : s.pins.rspReady = false)
  | noCommand (hr : s.rsp = none) (hb : s.seq.busy = false) (hv : s.pins.cmdValid = false)
  | notReady (hr : s.rsp = none) (hb : s.seq.busy = false) (hs : s.cmdReady = false)
  | transport (hr : s.running = true) (f : Frame) (i : Instr) (htx : s.tx = some f) (hd : decodeFrame f = .ok i)
      (hy : f ≠ i.frame ∨ s.pins.txDone = false)

/-- What one step can do, the environment's move left out. -/
inductive Moves (s : State) : State → Prop where
  | hardwareReset (h : s.pins.rstN = false) : Moves s s.hardwareReset
  | deliver (h : s.pins.rstN = true) (r : Response) (hr : s.rsp = some r) (hy : s.pins.rspReady = true) :
      Moves s s.deliver
  | hold (h : s.pins.rstN = true) (hw : Waits s) : Moves s s
  | illegal (h : s.pins.rstN = true) (hs : s.cmdReady = true) (hv : s.pins.cmdValid = true) (e : DecodeError)
      (hd : decodeCommand s.pins.cmdWord = .error e) :
      Moves s ((s.accept s.pins.cmdWord).respond .illegalCommand 0#16)
  | command {t : State} (h : s.pins.rstN = true) (hs : s.cmdReady = true) (hv : s.pins.cmdValid = true) (i : Instr)
      (hd : decodeCommand s.pins.cmdWord = .ok i) (ha : Accepted s i t) : Moves s t
  | emit (h : s.pins.rstN = true) (hr : s.running = true) (htx : s.tx = none) (f : Frame) (i : Instr)
      (hf : s.plannedFrame = some f) (hd : decodeFrame f = .ok i) : Moves s (s.emit i.frame)
  | fault (h : s.pins.rstN = true) (hr : s.running = true) (i : Instr) (htx : s.tx = some i.frame)
      (hy : s.pins.txDone = true) (hf : s.pins.txFault = true) : Moves s (s.frameFault i.frame)
  | ok {t : State} (h : s.pins.rstN = true) (hr : s.running = true) (i : Instr) (htx : s.tx = some i.frame)
      (hy : s.pins.txDone = true) (hf : s.pins.txFault = false) (ha : AnsweredOk s i.frame t) : Moves s t

/-- A decoded command is no frame. -/
theorem decodeCommand_isFrame {w : Command} {i : Instr} (h : decodeCommand w = .ok i) : i.isFrame = false := by
  unfold decodeCommand at h
  cases hf : commandRows.find? (·.selects w) with
  | none => simp [hf] at h
  | some r =>
    have hm := List.mem_of_find?_eq_some hf
    simp only [hf, Except.ok.injEq] at h
    subst h
    simp only [commandRows, List.mem_cons, List.not_mem_nil, or_false] at hm
    rcases hm with rfl | rfl | rfl | rfl | rfl | rfl | rfl | rfl | rfl | rfl | rfl | rfl | rfl <;> rfl

/-- A decoded frame is one of the fifteen. -/
theorem decodeFrame_isFrame {f : Frame} {i : Instr} (h : decodeFrame f = .ok i) : i.isFrame = true := by
  unfold decodeFrame at h
  cases hf : frameRows.find? (·.selects f) with
  | none => simp [hf] at h
  | some r =>
    have hm := List.mem_of_find?_eq_some hf
    simp only [hf, Except.ok.injEq] at h
    subst h
    simp only [frameRows, List.mem_cons, List.not_mem_nil, or_false] at hm
    rcases hm with rfl | rfl | rfl | rfl | rfl | rfl | rfl | rfl | rfl | rfl | rfl | rfl | rfl | rfl | rfl <;> rfl

/-- The inversion of a step: a next state is the environment's move after one of `Moves`. -/
theorem step_cases {s t : State} (h : step s = .next t) : ∃ u, Moves s u ∧ t = u.advance := by
  unfold step State.edge at h
  rcases Bool.eq_false_or_eq_true s.pins.rstN with hrst | hrst
  swap
  · simp only [hrst, Bool.false_eq_true, if_false, Host.Outcome.next.injEq] at h
    exact ⟨_, .hardwareReset hrst, h.symm⟩
  simp only [hrst, if_true] at h
  cases hrsp : s.rsp with
  | some r =>
    simp only [hrsp] at h
    split_ifs at h with hy <;> simp only [Host.Outcome.next.injEq] at h
    · exact ⟨_, .deliver hrst r hrsp hy, h.symm⟩
    · exact ⟨_, .hold hrst (.response r hrsp (by simpa using hy)), h.symm⟩
  | none =>
    simp only [hrsp] at h
    rcases Bool.eq_false_or_eq_true s.seq.busy with hb | hb
    · have hrun : s.running = true := (s.running_iff).mpr ⟨hb, hrsp⟩
      simp only [hb, if_true] at h
      have runFrame : ∀ f, (s.tx = some f ∨ s.tx = none ∧ s.plannedFrame = some f) →
          (match decodeFrame f with
            | .ok i => thenAdvance (exec i s)
            | .error _ => .refused .frameNotProduced) = Host.Outcome.next t →
          ∃ u, Moves s u ∧ t = u.advance := by
        intro f hf h
        cases hd : decodeFrame f with
        | error e => simp [hd] at h
        | ok i =>
          simp only [hd] at h
          obtain ⟨u, hu, rfl⟩ := thenAdvance_eq_next.mp h
          rw [exec_of_isFrame (decodeFrame_isFrame hd)] at hu
          rcases frameWrite_cases hu with ⟨rfl, hw⟩ | ⟨-, htx, rfl⟩ | ⟨-, htx, hy, hz, rfl⟩ | ⟨-, htx, hy, hz, ha⟩
          · rcases hw with hw | ⟨g, htx, hy⟩
            · simp [hw] at hrun
            · rcases hf with hf | ⟨hf, -⟩
              · rw [hf, Option.some.injEq] at htx
                subst htx
                exact ⟨_, .hold hrst (.transport hrun f i hf hd hy), rfl⟩
              · simp [hf] at htx
          · rcases hf with hf | ⟨-, hf⟩
            · simp [hf] at htx
            · exact ⟨_, .emit hrst hrun htx f i hf hd, rfl⟩
          · exact ⟨_, .fault hrst hrun i htx hy hz, rfl⟩
          · exact ⟨_, .ok hrst hrun i htx hy hz ha, rfl⟩
      cases htx : s.tx with
      | some f => simp only [htx] at h; exact runFrame f (.inl htx) h
      | none =>
        simp only [htx] at h
        cases hp : s.plannedFrame with
        | none => simp [hp] at h
        | some f => simp only [hp] at h; exact runFrame f (.inr ⟨htx, hp⟩) h
    · simp only [hb, Bool.false_eq_true, if_false] at h
      split_ifs at h with hv
      · simp only at h
        cases hd : decodeCommand s.pins.cmdWord with
        | ok i =>
          simp only [hd] at h
          obtain ⟨u, hu, rfl⟩ := thenAdvance_eq_next.mp h
          rcases exec_command_cases (decodeCommand_isFrame hd) hu with ⟨hs, rfl⟩ | ⟨hs, ha⟩
          · exact ⟨_, .hold hrst (.notReady hrsp (by simpa using hb) hs), rfl⟩
          · exact ⟨_, .command hrst hs hv i hd ha, rfl⟩
        | error e =>
          simp only [hd] at h
          obtain ⟨u, hu, rfl⟩ := thenAdvance_eq_next.mp h
          unfold runIllegal at hu
          split_ifs at hu with hs <;> simp only [Host.Outcome.next.injEq] at hu <;> subst hu
          · exact ⟨_, .illegal hrst hs hv e hd, rfl⟩
          · exact ⟨_, .hold hrst (.notReady hrsp (by simpa using hb) (by simpa using hs)), rfl⟩
      · simp only [Host.Outcome.next.injEq] at h
        exact ⟨_, .hold hrst (.noCommand hrsp (by simpa using hb) (by simpa using hv)), h.symm⟩

/-- `runFor` is the run of the machine behind Host/Core.lean. -/
theorem runFor_eq_core_run (n : Nat) (s : State) : runFor n s = Host.Core.run Sys2Proof.core n s := by
  induction n generalizing s with
  | zero => rfl
  | succ n ih =>
    cases hs : step s with
    | next t =>
      have hc : Sys2Proof.core.step s = .next t := hs
      simp only [runFor, hs, Host.Core.run, hc]
      exact ih t
    | fault r =>
      have hc : Sys2Proof.core.step s = .fault r := hs
      simp only [runFor, hs, Host.Core.run, hc]
      rfl
    | refused r =>
      have hc : Sys2Proof.core.step s = .refused r := hs
      simp only [runFor, hs, Host.Core.run, hc]
      rfl

/-- One more edge, when the first one leads on. -/
theorem runFor_succ {n : Nat} {s t : State} (h : step s = .next t) : runFor (n + 1) s = runFor n t := by
  simp [runFor, h]

/-- A run is a run on from a run. -/
theorem runFor_add {m n : Nat} {s t : State} (h : runFor m s = .next t) : runFor (m + n) s = runFor n t := by
  induction m generalizing s with
  | zero => simp only [runFor, Host.Outcome.next.injEq] at h; subst h; rw [Nat.zero_add]
  | succ m ih =>
    rw [Nat.succ_add]
    cases hs : step s with
    | next u => rw [runFor_succ hs] at h ⊢; exact ih h
    | fault r => simp [runFor, hs] at h
    | refused r => simp [runFor, hs] at h

end Sys2Proof.Machine
end

