-- ==== Sys2Proof/Machine/Assembler.lean ====
section
/-! DEFINITION. The assembler's syntax for the thirteen commands (30_encoding.md R71), total on any line of characters.
There are no pseudo-instructions (R72). The machine never reads it: it is how the spec writes commands. -/

namespace Sys2Proof

/-- One token of a line: a word, or a punctuation character by itself. -/
abbrev Token := List Char

/-- A comma. -/
def comma : Token := [',']

/-- The opening brace of SETPM's list of names. -/
def openBrace : Token := [Char.ofNat 123]

/-- The closing brace. -/
def closeBrace : Token := [Char.ofNat 125]

/-- A word being read, as tokens (none while it is empty). -/
def flushWord (word : List Char) : List Token := if word = [] then [] else [word]

/-- The tokens of a line: words between blanks, commas and braces by themselves, nothing after a semicolon. -/
def tokens : List Char → List Char → List Token
  | [], word => flushWord word
  | c :: cs, word =>
    if c = ';' then flushWord word
    else if c = ' ' then flushWord word ++ tokens cs []
    else if [c] = comma ∨ [c] = openBrace ∨ [c] = closeBrace then flushWord word ++ [c] :: tokens cs []
    else tokens cs (word ++ [c])

/-- A digit of the given base. -/
def digit (base : Nat) (c : Char) : Option Nat :=
  let n := c.toNat
  let v :=
    if 48 ≤ n ∧ n ≤ 57 then some (n - 48)
    else if 65 ≤ n ∧ n ≤ 70 then some (n - 55)
    else if 97 ≤ n ∧ n ≤ 102 then some (n - 87)
    else none
  v.filter (· < base)

/-- Digits read on from a value. -/
def digits (base : Nat) : List Char → Nat → Option Nat
  | [], acc => some acc
  | c :: cs, acc =>
    match digit base c with
    | none => none
    | some d => digits base cs (acc * base + d)

/-- "Numbers are decimal, or hexadecimal with `0x`" (30_encoding.md R71). -/
def number : Token → Option Nat
  | [] => none
  | '0' :: 'x' :: h :: hs => digits 16 (h :: hs) 0
  | c :: cs => digits 10 (c :: cs) 0

/-- "An assembler encodes any operand that fits its 8-bit field, so out-of-range operands can be written" (R71). -/
def operand (t : Token) : Option (BitVec 8) :=
  match number t with
  | none => none
  | some n => if n < 256 then some (BitVec.ofNat 8 n) else none

/-- A channel, `L` or `R`. -/
def channel (t : Token) : Option Channel :=
  if t = ['L'] then some .left else if t = ['R'] then some .right else none

/-- The flag of a name (10_state.md R18), as the bit of 30_encoding.md R49. -/
def flagBit (t : Token) : Option Nat :=
  if t = "adc_left".toList then some 0
  else if t = "adc_right".toList then some 1
  else if t = "dac_left".toList then some 2
  else if t = "dac_right".toList then some 3
  else if t = "left_out_1".toList then some 4
  else if t = "right_out_1".toList then some 5
  else if t = "pga_left".toList then some 6
  else if t = "pga_right".toList then some 7
  else none

/-- The names up to the closing brace: the flags that are 1 (R71). -/
def flagNames : List Token → Option (BitVec 8)
  | [] => none
  | [t] => if t = closeBrace then some 0#8 else none
  | t :: sep :: rest =>
    match flagBit t with
    | none => none
    | some i =>
      if sep = comma ∧ rest ≠ [closeBrace] then (flagNames rest).map (BitVec.twoPow 8 i ||| ·)
      else if sep = closeBrace ∧ rest = [] then some (BitVec.twoPow 8 i)
      else none

/-- A command without operands. -/
def command0 (op : Token) : Option Instr :=
  if op = "RESET".toList then some .reset
  else if op = "GETPM".toList then some .getpm
  else none

/-- A command with one operand. -/
def command1 (op x : Token) : Option Instr :=
  if op = "SETPM".toList then (operand x).map .setpm
  else if op = "SETDAI".toList then (operand x).map .setdai
  else if op = "SETDM".toList then (operand x).map .setdm
  else if op = "GETIV".toList then (channel x).map .getiv
  else if op = "GETOV".toList then (channel x).map .getov
  else if op = "GETMIX".toList then (channel x).map .getmix
  else if op = "GETDV".toList then (channel x).map .getdv
  else none

/-- A command with a channel and one operand. -/
def command2 (op x y : Token) : Option Instr :=
  match channel x, operand y with
  | some ch, some a =>
    if op = "SETIV".toList then some (.setiv ch a)
    else if op = "SETOV".toList then some (.setov ch a)
    else if op = "SETDV".toList then some (.setdv ch a)
    else none
  | _, _ => none

/-- SETMIX, with a channel, the left and the right level. -/
def command3 (op x y z : Token) : Option Instr :=
  match channel x, operand y, operand z with
  | some ch, some l, some r => if op = "SETMIX".toList then some (.setmix ch l r) else none
  | _, _, _ => none

/-- The command of a line's tokens. -/
def parseTokens : List Token → Option Instr
  | [op] => command0 op
  | [op, x] => command1 op x
  | [op, x, y, z] =>
    if op = "SETPM".toList ∧ x = openBrace then (flagNames [y, z]).map .setpm
    else if y = comma then command2 op x z
    else none
  | [op, x, y, z, u, v] =>
    if op = "SETPM".toList ∧ x = openBrace then (flagNames [y, z, u, v]).map .setpm
    else if y = comma ∧ u = comma then command3 op x z v
    else none
  | op :: x :: names => if op = "SETPM".toList ∧ x = openBrace then (flagNames names).map .setpm else none
  | [] => none

/-- The command a line stands for (30_encoding.md R71). -/
def parseLine (line : List Char) : Option Instr := parseTokens (tokens line [])

/-- The assembler: a line's command word. -/
def assembleLine (line : List Char) : Option Command := (parseLine line).map Instr.word

end Sys2Proof
end

