-- ==== Sys2Proof/Tests/Slice0.lean ====
section
/-! SUPPORT. Tests with values taken from the spec (30_encoding.md, 95_test_vectors.md), and a witness for the
hypotheses of every obligation that has some. -/

namespace Sys2Proof.Tests

open Sys2Proof.Machine

/-! ### Well-formedness: an ill-formed term for each check -/

theorem test_left_mute_must_agree : (Instr.frameLeftInputVolume false 0#6).wellFormed = false := by decide
theorem test_right_mute_must_agree : (Instr.frameRightInputVolume true 1#6).wellFormed = false := by decide
theorem test_left_mix1_enable_must_agree : (Instr.frameLeftOutMix1 true 7#3).wellFormed = false := by decide
theorem test_left_mix2_enable_must_agree : (Instr.frameLeftOutMix2 false 0#3).wellFormed = false := by decide
theorem test_right_mix1_enable_must_agree : (Instr.frameRightOutMix1 false 6#3).wellFormed = false := by decide
theorem test_right_mix2_enable_must_agree : (Instr.frameRightOutMix2 true 7#3).wellFormed = false := by decide
theorem test_wellFormed_frames :
    (Instr.frameLeftInputVolume true 0#6).wellFormed = true ∧ (Instr.frameRightOutMix2 true 0#3).wellFormed = true := by
  decide

/-! ### Decoding: every row, its word written bit by bit from 30_encoding.md R47 (OP, RSVD, CH, B, A) or R58 (ADDR, then
the payload, bit 8 down) -/

theorem test_decode_reset : decodeCommand 0b0001_00000000000_0_00000000_00000000#32 = .ok .reset := by decide
theorem test_decode_setiv : decodeCommand 0b0010_00000000000_1_00000000_00111111#32 = .ok (.setiv .right 63#8) := by decide
theorem test_decode_setov : decodeCommand 0b0011_00000000000_0_00000000_01111111#32 = .ok (.setov .left 127#8) := by decide
theorem test_decode_setpm : decodeCommand 0b0100_00000000000_0_00000000_00000101#32 = .ok (.setpm 5#8) := by decide
theorem test_decode_setmix : decodeCommand 0b0101_00000000000_1_11001000_00000011#32 = .ok (.setmix .right 3#8 200#8) := by
  decide
theorem test_decode_setdai : decodeCommand 0b0110_00000000000_0_00000000_00000011#32 = .ok (.setdai 3#8) := by decide
theorem test_decode_setdv : decodeCommand 0b0111_00000000000_1_00000000_11111111#32 = .ok (.setdv .right 255#8) := by decide
theorem test_decode_setdm : decodeCommand 0b1000_00000000000_0_00000000_00000001#32 = .ok (.setdm 1#8) := by decide
theorem test_decode_getiv : decodeCommand 0b1001_00000000000_1_00000000_00000000#32 = .ok (.getiv .right) := by decide
theorem test_decode_getov : decodeCommand 0b1010_00000000000_0_00000000_00000000#32 = .ok (.getov .left) := by decide
theorem test_decode_getpm : decodeCommand 0b1011_00000000000_0_00000000_00000000#32 = .ok .getpm := by decide
theorem test_decode_getmix : decodeCommand 0b1100_00000000000_1_00000000_00000000#32 = .ok (.getmix .right) := by decide
theorem test_decode_getdv : decodeCommand 0b1101_00000000000_0_00000000_00000000#32 = .ok (.getdv .left) := by decide

theorem test_decode_frameLeftInputVolume :
    decodeFrame 0b0000000_1_1_0_000000#16 = .ok (.frameLeftInputVolume true 0#6) := by decide
theorem test_decode_frameRightInputVolume :
    decodeFrame 0b0000001_1_0_0_101000#16 = .ok (.frameRightInputVolume false 40#6) := by decide
theorem test_decode_frameLeftOutput1Volume :
    decodeFrame 0b0000010_1_01000000#16 = .ok (.frameLeftOutput1Volume 64#7) := by decide
theorem test_decode_frameRightOutput1Volume :
    decodeFrame 0b0000011_1_01111111#16 = .ok (.frameRightOutput1Volume 127#7) := by decide
theorem test_decode_frameAdcDacControl :
    decodeFrame 0b0000101_0_0_00_0_1_00_0#16 = .ok (.frameAdcDacControl true) := by decide
theorem test_decode_frameAudioInterface :
    decodeFrame 0b0000111_0_0_0_0_0_01_10#16 = .ok (.frameAudioInterface 1#2) := by decide
theorem test_decode_frameLeftDacVolume :
    decodeFrame 0b0001010_1_10000000#16 = .ok (.frameLeftDacVolume 128#8) := by decide
theorem test_decode_frameRightDacVolume :
    decodeFrame 0b0001011_1_11111111#16 = .ok (.frameRightDacVolume 255#8) := by decide
theorem test_decode_frameReset : decodeFrame 0b0001111_000000000#16 = .ok .frameReset := by decide
theorem test_decode_framePowerManagement1 :
    decodeFrame 0b0011001_01_1_1_0_0_1_0_0#16 = .ok (.framePowerManagement1 true false false true) := by decide
theorem test_decode_framePowerManagement2 :
    decodeFrame 0b0011010_1_0_0_1_0_0_000#16 = .ok (.framePowerManagement2 true false false true) := by decide
theorem test_decode_frameLeftOutMix1 :
    decodeFrame 0b0100010_1_1_000_0_011#16 = .ok (.frameLeftOutMix1 true 0#3) := by decide
theorem test_decode_frameLeftOutMix2 :
    decodeFrame 0b0100011_0_0_111_0000#16 = .ok (.frameLeftOutMix2 false 7#3) := by decide
theorem test_decode_frameRightOutMix1 :
    decodeFrame 0b0100100_0_1_100_0_011#16 = .ok (.frameRightOutMix1 true 4#3) := by decide
theorem test_decode_frameRightOutMix2 :
    decodeFrame 0b0100101_1_1_010_0000#16 = .ok (.frameRightOutMix2 true 2#3) := by decide

/-- V-IL-1 to V-IL-9: the illegal words of 95_test_vectors.md. -/
theorem test_illegal_words :
    ∀ w ∈ [0x00000000#32, 0xE0000000#32, 0xF0000000#32, 0x20020005#32, 0x20000105#32, 0xB0010000#32, 0x10000001#32,
           0x40010005#32, 0x28000040#32], decodeCommand w = .error .illegalCommand := by
  simp [decodeCommand, commandRows, Row.selects]

/-- A frame at an address outside the map, one with bit 7 set at an output volume, one whose mute bit disagrees, one whose
enable disagrees (30_encoding.md R70, 90_conflicts.md C2 and C3). -/
theorem test_frames_not_produced :
    ∀ f ∈ [0xFFFF#16, 0x07FF#16, 0x0100#16, 0x4571#16, 0x0800#16], decodeProduced f = .error .notProduced := by
  simp [decodeProduced, decodeFrame, frameRows, Row.selects, Instr.wellFormed, muteAgrees, enableAgrees]

theorem test_decodeTableWord :
    decodeTableWord 32 0x20010028 = some (.setiv .right 40#8) ∧ decodeTableWord 16 0x1E00 = some .frameReset
      ∧ decodeTableWord 16 0x0800 = none ∧ decodeTableWord 8 0x10 = none := by decide

theorem test_bytes_big_endian : decodeFrameBytes 0x01#8 0x80#8 = .ok (.frameLeftInputVolume true 0#6) := by decide

/-! ### The assembler's syntax (30_encoding.md R71; words from 95_test_vectors.md) -/

theorem test_assemble_setmix : assembleLine "SETMIX R, 3, 200 ; V-MX-16".toList = some 0x5001C803#32 := by decide
theorem test_assemble_flags :
    assembleLine ("SETPM ".toList ++ openBrace ++ "adc_left, dac_left".toList ++ closeBrace) = some 0x40000005#32 := by
  decide
theorem test_assemble_hex : assembleLine "SETIV L, 0x40".toList = some 0x20000040#32 := by decide
theorem test_assemble_plain :
    assembleLine "RESET".toList = some 0x10000000#32 ∧ assembleLine "GETDV R".toList = some 0xD0010000#32
      ∧ assembleLine "SETIV L, 256".toList = none := by decide

/-! ### The packer (95_test_vectors.md 2.1 and L1-1) -/

theorem test_mask :
    mask 0 = 0#16 ∧ mask 6 = 0x003F#16 ∧ mask 15 = 0x7FFF#16 ∧ mask 16 = 0xFFFF#16 ∧ mask 32 = 0xFFFF#16 := by
  simp [mask]
/-- V-PK-1, 3, 8, and L1-2. -/
theorem test_pack :
    pack 0 0 0 = .ok 0#16 ∧ pack 1 8 9 = .ok 0x0100#16 ∧ pack 0xFFFF 0 16 = .ok 0xFFFF#16
      ∧ pack 0x7F 9 16 = .ok 0xFE00#16 := by simp [pack, mask]
/-- V-PK-2, 5, 7, 9. -/
theorem test_pack_fails :
    pack 1 0 0 = .error .valueOutOfRange ∧ pack 2 7 8 = .error .valueOutOfRange
      ∧ pack 0x100 0 8 = .error .valueOutOfRange ∧ pack 0x10000 0 16 = .error .valueOutOfRange := by simp [pack]
/-- V-PK-10 to 14. -/
theorem test_frame :
    frame 0x0F 0 = .ok 0x1E00#16 ∧ frame 0x7F 0x1FF = .ok 0xFFFF#16 ∧ frame 0x80 0 = .error .valueOutOfRange
      ∧ frame 0 0x200 = .error .valueOutOfRange ∧ assemble [⟨3, 2, 4⟩, ⟨0b10, 0, 2⟩] = .ok 0x000E#16 := by decide

/-! ### States for the tests -/

/-- The state right after reset in another mode. -/
def inMode (m : Mode) : State := { State.reset with mode := m }

/-- A field of the next state. -/
def next? {α : Type} (o : Host.Outcome State Fault Refusal) (get : State → α) : Option α :=
  match o with
  | .next t => some (get t)
  | .fault _ => none
  | .refused _ => none

/-- A command's frames. -/
def framesOf (i : Instr) : Option (List Frame) := (plan Config.default i).toOption.map planFrames

/-- A command presented in the given mode, with the pins of the edges to come. -/
def presenting (m : Mode) (i : Instr) (future : List Pins) : State :=
  { inMode m with pins := { idlePins with cmdValid := true, cmdWord := i.word }, future := future }

/-- A command running at the given sub-operation and frame, with the frame there in flight and the transport's answer on
the pins. -/
def answering (m : Mode) (i : Instr) (j k : BitVec 4) (snap : Snap) (f : Frame) (isFault : Bool) : State :=
  { inMode m with
    seq := ⟨true, i.word, j, k, snap⟩, tx := some f, pins := { idlePins with txDone := true, txFault := isFault } }

/-! ### The setters: the frames of 95_test_vectors.md 2.2, and the outcome of one step -/

/-- V-IV-1, V-IV-9. -/
theorem test_setiv_frames :
    framesOf (.setiv .left 0#8) = some [0x0180#16] ∧ framesOf (.setiv .right 40#8) = some [0x0328#16] := by decide
/-- V-IV-5. -/
theorem test_setiv_out_of_range :
    next? (exec (.setiv .left 64#8) (inMode .ready)) (fun t => (t.mode, t.faultValid, t.faultCmd, t.rsp))
      = some (.fatal, true, 0x20000040#32, none) := by decide
/-- V-OV-7 (90_conflicts.md C2). -/
theorem test_setov_frames : framesOf (.setov .right 127#8) = some [0x077F#16] := by decide
/-- V-OV-5. -/
theorem test_setov_out_of_range : next? (exec (.setov .left 128#8) (inMode .ready)) (·.mode) = some .fatal := by decide
/-- V-PM-2 and the example of 41_setters.md R85. -/
theorem test_setpm_frames :
    framesOf (.setpm 0xFF#8) = some [0x32FC#16, 0x35E0#16] ∧ framesOf (.setpm 0x05#8) = some [0x32C8#16, 0x3500#16] := by
  decide
theorem test_setpm_word_a_faults :
    next? (step (answering .ready (.setpm 0xFF#8) 0#4 0#4 (.power (PowerConfig.ofByte 0xFF#8)) 0x32FC#16 true))
      (fun t => (t.rsp, t.m.pwr, t.tx)) = some (some ⟨.transportFault, 0#16⟩, Mirror.zero.pwr, none) := by decide
/-- V-MX-2 (90_conflicts.md C3), V-MX-14. -/
theorem test_setmix_frames :
    framesOf (.setmix .left 7#8 0#8) = some [0x4583#16, 0x4670#16]
      ∧ framesOf (.setmix .right 3#8 5#8) = some [0x48C3#16, 0x4BA0#16] := by decide
/-- V-MX-16. -/
theorem test_setmix_out_of_range :
    next? (exec (.setmix .right 3#8 200#8) (inMode .ready)) (·.faultCmd) = some 0x5001C803#32 := by decide
/-- V-DA-4. -/
theorem test_setdai_frames : framesOf (.setdai 3#8) = some [0x0E0E#16] := by decide
/-- V-DA-5. -/
theorem test_setdai_out_of_range : next? (exec (.setdai 4#8) (inMode .ready)) (·.mode) = some .fatal := by decide
/-- V-DV-3, V-DV-6. -/
theorem test_setdv_frames :
    framesOf (.setdv .left 128#8) = some [0x1580#16] ∧ framesOf (.setdv .right 255#8) = some [0x17FF#16] := by decide
/-- V-DM-2. -/
theorem test_setdm_frames : framesOf (.setdm 1#8) = some [0x0A08#16] := by decide
/-- V-NI-3. -/
theorem test_setdm_not_initialized :
    next? (exec (.setdm 1#8) (inMode .uninit)) (fun t => (t.rsp, t.mode)) = some (some ⟨.notInitialized, 0#16⟩, .uninit) := by
  decide

/-! ### RESET and the getters -/

/-- V-RS-1. -/
theorem test_reset_frames :
    framesOf .reset = some [0x1E00#16, 0x0180#16, 0x0380#16, 0x0500#16, 0x0700#16, 0x32C0#16, 0x3400#16, 0x4573#16,
      0x4670#16, 0x4873#16, 0x4B70#16, 0x0E02#16, 0x1500#16, 0x1700#16, 0x0A00#16] := by decide
/-- V-RS-5: RESET drops to UNINIT at once and keeps the mirror. -/
theorem test_reset_drops_to_uninit :
    next? (exec .reset { inMode .ready with m := { Mirror.zero with iv := ⟨63#6, 0#6⟩ } }) (fun t => (t.mode, t.m.iv.left))
      = some (.uninit, 63#6) := by decide
/-- V-GT-1, V-GT-2. -/
theorem test_getiv :
    next? (exec (.getiv .right) { inMode .ready with m := { Mirror.zero with iv := ⟨0#6, 63#6⟩ } }) (·.rsp)
      = some (some ⟨.ok, 0x003F#16⟩) := by decide
/-- V-GT-3. -/
theorem test_getov :
    next? (exec (.getov .right) { inMode .ready with m := { Mirror.zero with ov := ⟨0#7, 127#7⟩ } }) (·.rsp)
      = some (some ⟨.ok, 0x007F#16⟩) := by decide
/-- V-GT-5. -/
theorem test_getpm :
    next? (exec .getpm { inMode .ready with m := { Mirror.zero with pwr := PowerConfig.ofByte 0xAA#8 } }) (·.rsp)
      = some (some ⟨.ok, 0x00AA#16⟩) := by decide
/-- V-GT-6. -/
theorem test_getmix :
    next? (exec (.getmix .left) { inMode .ready with m := { Mirror.zero with mix := ⟨⟨3#3, 5#3⟩, ⟨0#3, 0#3⟩⟩ } }) (·.rsp)
      = some (some ⟨.ok, 0x0503#16⟩) := by decide
/-- V-GT-8. -/
theorem test_getdv :
    next? (exec (.getdv .right) { inMode .ready with m := { Mirror.zero with dv := ⟨0#8, 255#8⟩ } }) (·.rsp)
      = some (some ⟨.ok, 0x00FF#16⟩) := by decide

/-! ### The frames -/

/-- The bytes of V-IV-1 on the link, and the codec's register once the frame is answered `Ok`. -/
theorem test_frame_goes_out :
    next? (exec (.frameLeftInputVolume true 0#6)
        { inMode .ready with seq := ⟨true, 0x20000000#32, 0#4, 0#4, .inputVolume .left 0#6⟩ })
      (fun t => (t.wire, t.tx)) = some ([0x01#8, 0x80#8], some 0x0180#16) := by decide
theorem test_frame_ok :
    next? (step (answering .ready (.setdm 1#8) 0#4 0#4 (.mute true) 0x0A08#16 false))
      (fun t => (t.m.mute, t.rsp, t.chip)) = some (true, some ⟨.ok, 0#16⟩, [(0x05, 0x008#9)]) := by decide
/-- V-RS-4: the last frame of RESET answered `Fault` leaves `M.MUTE` and reports 14. -/
theorem test_frame_fault :
    next? (step (answering .uninit .reset 11#4 14#4 (.mute false) 0x0A00#16 true))
      (fun t => (t.mode, t.rsp)) = some (.uninit, some ⟨.transportFault, 14#16⟩) := by decide
theorem test_reset_completes :
    next? (step (answering .uninit .reset 11#4 14#4 (.mute false) 0x0A00#16 false))
      (fun t => (t.mode, t.rsp)) = some (.ready, some ⟨.ok, 0#16⟩) := by decide

/-! ### What the host asks with `withFetchWord` -/

theorem test_withFetchWord_command :
    next? (step (State.reset.withFetchWord 32 0x10000000)) (fun t => (t.seq.cmd, t.seq.busy, t.plannedFrame))
      = some (0x10000000#32, true, some 0x1E00#16) := by decide
theorem test_withFetchWord_frame :
    next? (step (State.reset.withFetchWord 16 0x32C0)) (fun t => (t.tx, t.seq.k, t.chip))
      = some (none, 1#4, [(0x19, 0x0C0#9)]) := by decide

/-! ### Witnesses: for every obligation with hypotheses, concrete values that meet them, each clause at a boundary -/

theorem witness_MaskSetsTheLowBits : (15 : Nat) < 16 := by decide
theorem witness_PackRoundTrip :
    ((0 : Nat) ≤ 0 ∧ 0 ≤ 16 ∧ 0 ≤ 2 ^ (0 - 0) - 1) ∧ ((9 : Nat) ≤ 16 ∧ 16 ≤ 16 ∧ 127 ≤ 2 ^ (16 - 9) - 1) := by decide
theorem witness_PackFailsOnAWideValue : (0 : Nat) ≤ 6 ∧ 6 ≤ 16 ∧ 2 ^ (6 - 0) - 1 < 64 := by decide
theorem witness_PackOutsideItsDomainIsRefused : ((4 : Nat) < 5 ∨ 16 < 4) ∧ ((17 : Nat) < 0 ∨ 16 < 17) := by decide
theorem witness_DisjointFieldsReadBack :
    (∀ f ∈ [(⟨0x7F, 9, 16⟩ : Field), ⟨1, 8, 9⟩, ⟨63, 0, 6⟩],
        f.start ≤ f.stop ∧ f.stop ≤ 16 ∧ f.value ≤ 2 ^ (f.stop - f.start) - 1)
      ∧ [(⟨0x7F, 9, 16⟩ : Field), ⟨1, 8, 9⟩, ⟨63, 0, 6⟩].Pairwise (fun f g => f.stop ≤ g.start ∨ g.stop ≤ f.start) := by
  simp
theorem witness_FrameHoldsAddressAndPayload :
    ((127 : Nat) ≤ 127 ∧ (511 : Nat) ≤ 511) ∧ (127 < (128 : Nat) ∨ 511 < (0 : Nat)) ∧ (127 < (0 : Nat) ∨ 511 < (512 : Nat)) := by
  decide
theorem witness_EncodeOfDecode : decode (.frame 0x0A08#16) = .ok (.frameAdcDacControl true) := by decide
theorem witness_FramesNotProducedAreRejected : ∀ i : Instr, i.wellFormed = true → encode i ≠ .frame 0xFFFF#16 := by
  intro i _ h
  cases i <;> simp only [encode, reduceCtorEq, CodeWord.frame.injEq] at h <;>
    exact absurd (congrArg (·.getLsbD 15) h) (by simp only [frameWord]; rw [BitVec.getLsbD_append, if_neg (by decide)]; decide)

theorem witness_NotReadyBlockAcceptsNoCommand :
    Instr.getpm.isFrame = false ∧ (inMode .fatal).cmdReady = false
      ∧ (answering .ready .getpm 0#4 0#4 .nothing 0#16 false).cmdReady = false
      ∧ ({ inMode .ready with rsp := some ⟨.ok, 0#16⟩ } : State).cmdReady = false := by decide
theorem witness_SettersNeedAnInitializedBlock :
    (Instr.setiv .left 64#8).isSetter = true ∧ (inMode .uninit).cmdReady = true ∧ (inMode .uninit).mode = .uninit := by
  decide
theorem witness_OperandOutOfRangeIsFatal :
    (inMode .ready).cmdReady = true ∧ (inMode .ready).mode = .ready ∧ 63 < (64#8).toNat ∧ 127 < (128#8).toNat
      ∧ (7 < (8#8).toNat ∨ 7 < (0#8).toNat) ∧ (7 < (0#8).toNat ∨ 7 < (8#8).toNat) ∧ 3 < (4#8).toNat ∧ 1 < (2#8).toNat := by
  decide
theorem witness_IllegalCommandIsAnswered :
    let s : State := { inMode .uninit with pins := { idlePins with cmdValid := true, cmdWord := 0xE0000000#32 } }
    s.cmdReady = true ∧ s.pins.rstN = true ∧ s.pins.cmdValid = true
      ∧ decodeCommand s.pins.cmdWord = .error .illegalCommand := by
  refine ⟨by decide, by decide, by decide, test_illegal_words _ (by simp)⟩

/-- A setter presented in `READY`, its first frame answered as given at the first chance. -/
def oneFrameRun (i : Instr) (ok : Bool) : State := presenting .ready i (answerEdges [(ok, idlePins, idlePins)])

/-- A setter presented in `READY`, its two frames answered as given. -/
def twoFrameRun (i : Instr) (ok₁ ok₂ : Bool) : State :=
  presenting .ready i (answerEdges [(ok₁, idlePins, idlePins), (ok₂, idlePins, idlePins)])

/-- The block of a `presenting` state in `READY` is presented its command. -/
theorem presents_of_ready (i : Instr) (future : List Pins) : (presenting .ready i future).presents i :=
  ⟨rfl, rfl, rfl, rfl, rfl⟩

/-! Each setter's witness covers every answer of the transport: `Ok` and `Fault` of its one frame, or the three cases of its
two frames, at the ends of the operand's range. -/

theorem witness_SetivSetsOneInputVolume :
    ∀ (ok : Bool) (a : BitVec 8), a = 0#8 ∨ a = 63#8 →
      let s := oneFrameRun (.setiv .left a) ok
      s.cmdReady = true ∧ s.mode = .ready ∧ a.toNat ≤ 63 ∧ s.presents (.setiv .left a)
        ∧ s.future = answerEdges [(ok, idlePins, idlePins)] ++ [] := by
  rintro ok a (rfl | rfl) <;> exact ⟨rfl, rfl, by decide, presents_of_ready _ _, rfl⟩
theorem witness_SetovSetsOneOutputVolume :
    ∀ (ok : Bool) (a : BitVec 8), a = 0#8 ∨ a = 127#8 →
      let s := oneFrameRun (.setov .right a) ok
      s.cmdReady = true ∧ s.mode = .ready ∧ a.toNat ≤ 127 ∧ s.presents (.setov .right a)
        ∧ s.future = answerEdges [(ok, idlePins, idlePins)] ++ [] := by
  rintro ok a (rfl | rfl) <;> exact ⟨rfl, rfl, by decide, presents_of_ready _ _, rfl⟩
theorem witness_SetpmSetsThePowerFlags :
    ∀ (ok₁ ok₂ : Bool) (a : BitVec 8), a = 0#8 ∨ a = 0xFF#8 →
      let s := twoFrameRun (.setpm a) ok₁ ok₂
      s.cmdReady = true ∧ s.mode = .ready ∧ s.presents (.setpm a)
        ∧ s.future = answerEdges [(ok₁, idlePins, idlePins), (ok₂, idlePins, idlePins)] ++ [] := by
  rintro ok₁ ok₂ a (rfl | rfl) <;> exact ⟨rfl, rfl, presents_of_ready _ _, rfl⟩
theorem witness_SetmixSetsOneMixer :
    ∀ (ok₁ ok₂ : Bool) (l r : BitVec 8), l = 7#8 ∧ r = 0#8 ∨ l = 0#8 ∧ r = 7#8 →
      let s := twoFrameRun (.setmix .left l r) ok₁ ok₂
      s.cmdReady = true ∧ s.mode = .ready ∧ l.toNat ≤ 7 ∧ r.toNat ≤ 7 ∧ s.presents (.setmix .left l r)
        ∧ s.future = answerEdges [(ok₁, idlePins, idlePins), (ok₂, idlePins, idlePins)] ++ [] := by
  rintro ok₁ ok₂ l r (⟨rfl, rfl⟩ | ⟨rfl, rfl⟩) <;>
    exact ⟨rfl, rfl, by decide, by decide, presents_of_ready _ _, rfl⟩
theorem witness_SetdaiWritesTheAudioInterface :
    ∀ (ok : Bool) (a : BitVec 8), a = 0#8 ∨ a = 3#8 →
      let s := oneFrameRun (.setdai a) ok
      s.cmdReady = true ∧ s.mode = .ready ∧ a.toNat ≤ 3 ∧ s.presents (.setdai a)
        ∧ s.future = answerEdges [(ok, idlePins, idlePins)] ++ [] := by
  rintro ok a (rfl | rfl) <;> exact ⟨rfl, rfl, by decide, presents_of_ready _ _, rfl⟩
theorem witness_SetdvSetsOneDacVolume :
    ∀ (ok : Bool) (a : BitVec 8), a = 0#8 ∨ a = 255#8 →
      let s := oneFrameRun (.setdv .right a) ok
      s.cmdReady = true ∧ s.mode = .ready ∧ s.presents (.setdv .right a)
        ∧ s.future = answerEdges [(ok, idlePins, idlePins)] ++ [] := by
  rintro ok a (rfl | rfl) <;> exact ⟨rfl, rfl, presents_of_ready _ _, rfl⟩
theorem witness_SetdmSetsTheMute :
    ∀ (ok : Bool) (a : BitVec 8), a = 0#8 ∨ a = 1#8 →
      let s := oneFrameRun (.setdm a) ok
      s.cmdReady = true ∧ s.mode = .ready ∧ a.toNat ≤ 1 ∧ s.presents (.setdm a)
        ∧ s.future = answerEdges [(ok, idlePins, idlePins)] ++ [] := by
  rintro ok a (rfl | rfl) <;> exact ⟨rfl, rfl, by decide, presents_of_ready _ _, rfl⟩

theorem cfg_default_wf : Config.default.wf := List.Perm.refl _
/-- Another admitted `RESET_ORDER`: the mute first. -/
theorem other_order_wf : (⟨0b01#2, ResetSub.mute :: ResetSub.listed.dropLast⟩ : Config).wf := by decide

theorem witness_ResetBeginsWithTheResetFrame :
    (inMode .ready).cmdReady = true ∧ (inMode .uninit).cmdReady = true ∧ (inMode .ready).cfg.wf :=
  ⟨rfl, rfl, cfg_default_wf⟩
theorem witness_ResetPlanInAnyOrder : Config.wf ⟨0b01#2, ResetSub.mute :: ResetSub.listed.dropLast⟩ := other_order_wf
theorem witness_ResetRunMakesTheBlockReady :
    let xs := List.replicate 15 (true, idlePins, idlePins)
    let s := presenting .ready .reset (answerEdges xs)
    s.presents .reset ∧ s.cfg.wf ∧ xs.length = 15 ∧ (∀ x ∈ xs, x.1 = true) ∧ s.future = answerEdges xs ++ [] :=
  ⟨presents_of_ready _ _, cfg_default_wf, rfl, by simp, rfl⟩

/-- The hypothesis of GetivAnswersTheInputVolume, GetovAnswersTheOutputVolume, GetpmAnswersThePowerFlags,
GetmixAnswersTheTwoLevels and GetdvAnswersTheDacVolume, in both modes that meet it. -/
theorem witness_Getters : (inMode .uninit).cmdReady = true ∧ (inMode .ready).cmdReady = true := by decide

/-- A running SETDM, its frame not yet on the port. -/
def setdmWaiting : State := { inMode .ready with seq := ⟨true, 0x80000001#32, 0#4, 0#4, .mute true⟩ }

/-- The same with its frame in flight, answered as given. -/
def setdmAnswering (isFault : Bool) : State :=
  answering .ready (.setdm 1#8) 0#4 0#4 (.mute true) 0x0A08#16 isFault

theorem witness_FrameGoesOutMostSignificantByteFirst :
    (Instr.frameAdcDacControl true).isFrame = true ∧ setdmWaiting.running = true ∧ setdmWaiting.tx = none := by decide
theorem witness_FrameIsHeldUntilAnswered :
    let s : State := { setdmAnswering false with pins := { idlePins with txFault := true } }
    s.running = true ∧ s.tx = some (Instr.frameAdcDacControl true).frame ∧ s.pins.txDone = false := by decide
theorem witness_FaultAnswerEndsTheCommand :
    let s := setdmAnswering true
    s.running = true ∧ s.tx = some (Instr.frameAdcDacControl true).frame ∧ s.pins.txDone = true ∧ s.pins.txFault = true := by
  decide

/-- RESET at its last frame, answered `Ok`. -/
def resetLast : State := answering .uninit .reset 11#4 14#4 (.mute false) 0x0A00#16 false

/-- RESET at the first frame of SETPM's sub-operation, and at its second. -/
def resetPower (k : BitVec 4) (f : Frame) : State :=
  answering .uninit .reset 5#4 k (.power Mirror.zero.pwr) f false

/-- The plan of RESET in the default configuration. -/
def resetPlan : List SubOp := (planReset Config.default).toOption.getD []

theorem witness_OkAnswerAdvancesThePlan_inside :
    let s := resetPower 5#4 0x32C0#16
    s.running = true ∧ s.tx = some (Instr.framePowerManagement1 false false false false).frame ∧ s.pins.txDone = true
      ∧ s.pins.txFault = false ∧ s.plan? = some resetPlan
      ∧ ¬ (s.seq.k.toNat + 1 = framesBefore resetPlan (s.seq.j.toNat + 1)) := by decide
theorem witness_OkAnswerAdvancesThePlan_nextSubOp :
    let s := resetPower 6#4 0x3400#16
    s.running = true ∧ s.tx = some (Instr.framePowerManagement2 false false false false).frame ∧ s.pins.txDone = true
      ∧ s.pins.txFault = false ∧ s.plan? = some resetPlan
      ∧ s.seq.k.toNat + 1 = framesBefore resetPlan (s.seq.j.toNat + 1)
      ∧ resetPlan[s.seq.j.toNat + 1]? = some ⟨[0x4573#16, 0x4670#16], .mix .left 0#3 0#3⟩ := by decide
theorem witness_OkAnswerAdvancesThePlan_setterEnds :
    let s := setdmAnswering false
    let p : List SubOp := [⟨[0x0A08#16], .mute true⟩]
    s.running = true ∧ s.tx = some (Instr.frameAdcDacControl true).frame ∧ s.pins.txDone = true ∧ s.pins.txFault = false
      ∧ s.plan? = some p ∧ s.seq.k.toNat + 1 = framesBefore p (s.seq.j.toNat + 1) ∧ p[s.seq.j.toNat + 1]? = none
      ∧ s.seq.cmd ≠ 0x10000000#32 := by decide
theorem witness_OkAnswerAdvancesThePlan_resetEnds :
    resetLast.running = true ∧ resetLast.tx = some (Instr.frameAdcDacControl false).frame
      ∧ resetLast.pins.txDone = true ∧ resetLast.pins.txFault = false ∧ resetLast.plan? = some resetPlan
      ∧ resetLast.seq.k.toNat + 1 = framesBefore resetPlan (resetLast.seq.j.toNat + 1)
      ∧ resetPlan[resetLast.seq.j.toNat + 1]? = none ∧ resetLast.seq.cmd = 0x10000000#32 := by decide
theorem witness_GhostRegistersFollowTheAnswers : Memory.wf [(0x05, 0x008#9), (0x0F, 0#9), (0x7F, 0x1FF#9)] = true := by
  decide

theorem witness_StepRunsTheDecodedInstruction :
    (let s := presenting .uninit .getpm []
     s.pins.rstN = true ∧ s.rsp = none ∧ s.seq.busy = false ∧ s.pins.cmdValid = true
       ∧ decodeCommand s.pins.cmdWord = .ok .getpm)
    ∧ (setdmWaiting.pins.rstN = true ∧ setdmWaiting.rsp = none ∧ setdmWaiting.seq.busy = true ∧ setdmWaiting.tx = none
        ∧ setdmWaiting.plannedFrame = some 0x0A08#16 ∧ decodeFrame 0x0A08#16 = .ok (.frameAdcDacControl true)) := by decide
theorem witness_HardwareResetTakesTheResetState :
    ({ setdmAnswering false with pins := { idlePins with rstN := false } } : State).pins.rstN = false := by decide
theorem witness_ResponseIsHeldUntilTaken :
    let s : State := { inMode .ready with rsp := some ⟨.transportFault, 14#16⟩ }
    s.pins.rstN = true ∧ s.rsp = some ⟨.transportFault, 14#16⟩ ∧ s.pins.rspReady = false
      ∧ ({ s with pins := { s.pins with rspReady := true } } : State).pins.rspReady = true := by decide
theorem witness_BlockWaitsForTheTransportForEver :
    let s : State := { setdmAnswering false with pins := idlePins, future := [idlePins, idlePins] }
    s.running = true ∧ s.tx = some 0x0A08#16 ∧ decodeFrame 0x0A08#16 = .ok (.frameAdcDacControl true)
      ∧ (∀ q ∈ s.pins :: s.future, q.rstN = true ∧ q.txDone = false) ∧ 3 ≤ s.future.length + 1 := by decide
theorem witness_FatalBlockWaitsForHardwareReset :
    let s : State := { presenting .fatal .getpm [idlePins] with faultValid := true, faultCmd := 0x50000008#32 }
    s.mode = .fatal ∧ s.idle ∧ (∀ q ∈ s.pins :: s.future, q.rstN = true) ∧ 2 ≤ s.future.length + 1 :=
  ⟨rfl, ⟨rfl, rfl⟩, by decide, by decide⟩

theorem witness_StatusOutputsShowTheState : State.reset.pins.rstN = true := rfl
theorem witness_IdleBlockStaysIdle :
    let s : State := { State.reset with future := [idlePins, idlePins] }
    s.idle ∧ (∀ q ∈ s.pins :: s.future, q.rstN = true ∧ q.cmdValid = false) ∧ 3 ≤ s.future.length + 1 :=
  ⟨⟨rfl, rfl⟩, by decide, by decide⟩

/-- A field of a next state, read off the step. -/
theorem of_next? {α : Type} {o : Host.Outcome State Fault Refusal} {get : State → α} {a : α}
    (h : next? o get = some a) : ∃ t, o = .next t ∧ get t = a := by
  cases o <;> simp_all [next?]

theorem witness_ReadyOnlyAfterACompleteReset : ∃ t, step resetLast = .next t ∧ t.mode = .ready ∧ resetLast.mode ≠ .ready := by
  obtain ⟨t, h, hm⟩ := of_next? (by decide : next? (step resetLast) (·.mode) = some .ready)
  exact ⟨t, h, hm, by decide⟩
/-- RESET accepted in READY, and hardware reset of a fatal block. -/
theorem witness_UninitOnlyByAResetOrHardwareReset :
    (∃ t, step (presenting .ready .reset []) = .next t ∧ t.mode = .uninit ∧ (presenting .ready .reset []).mode ≠ .uninit)
    ∧ (let s : State := { inMode .fatal with pins := { idlePins with rstN := false } }
       ∃ t, step s = .next t ∧ t.mode = .uninit ∧ s.mode ≠ .uninit) := by
  refine ⟨?_, _, rfl, rfl, by decide⟩
  obtain ⟨t, h, hm⟩ := of_next? (by decide : next? (step (presenting .ready .reset [])) (·.mode) = some .uninit)
  exact ⟨t, h, hm, by decide⟩
theorem witness_FatalOnlyByAnOperandOutOfRange :
    ∃ t, step (presenting .ready (.setiv .left 64#8) []) = .next t ∧ t.mode = .fatal
      ∧ (presenting .ready (.setiv .left 64#8) []).mode ≠ .fatal := by
  obtain ⟨t, h, hm⟩ :=
    of_next? (by decide : next? (step (presenting .ready (.setiv .left 64#8) [])) (·.mode) = some .fatal)
  exact ⟨t, h, hm, by decide⟩
theorem witness_MirrorChangesOnlyWhenASubOperationSucceeds :
    ∃ t, step (setdmAnswering false) = .next t ∧ (setdmAnswering false).pins.rstN = true ∧ t.m ≠ (setdmAnswering false).m := by
  obtain ⟨t, h, hm⟩ := of_next? (by decide : next? (step (setdmAnswering false)) (·.m.mute) = some true)
  exact ⟨t, h, rfl, fun e => by rw [e] at hm; exact absurd hm (by decide)⟩
/-- The fault record kept by a fatal block to which a further out-of-range word is presented (60_exceptions.md R104). -/
theorem witness_FaultRecordIsWrittenByRangeErrorsOnly_kept :
    let s : State := { presenting .fatal (.setiv .left 64#8) [] with faultValid := true, faultCmd := 0x20000041#32 }
    ∃ t, step s = .next t ∧ (t.faultValid, t.faultCmd) = (true, 0x20000041#32) ∧ s.pins.rstN = true
      ∧ s.pins.cmdValid = true ∧ s.pins.cmdWord ≠ 0x20000041#32 := by
  intro s
  obtain ⟨t, h, hf⟩ :=
    of_next? (by decide : next? (step s) (fun t => (t.faultValid, t.faultCmd)) = some (true, 0x20000041#32))
  exact ⟨t, h, hf, by decide, by decide, by decide⟩
/-- The fault record cleared by hardware reset (70_reset_and_hazards.md R119). -/
theorem witness_FaultRecordIsWrittenByRangeErrorsOnly_cleared :
    let s : State :=
      { inMode .fatal with pins := { idlePins with rstN := false }, faultValid := true, faultCmd := 0x20000041#32 }
    ∃ t, step s = .next t ∧ (t.faultValid, t.faultCmd) = (false, 0#32) :=
  of_next? (by decide)
/-- The fault record written by SETIV L, 64 (60_exceptions.md R103). -/
theorem witness_FaultRecordIsWrittenByRangeErrorsOnly_written :
    let s := presenting .ready (.setiv .left 64#8) []
    (∃ t, step s = .next t ∧ (t.mode, t.faultValid, t.faultCmd) = (.fatal, true, 0x20000040#32))
      ∧ s.pins.rstN = true ∧ s.cmdReady = true ∧ s.mode = .ready ∧ s.pins.cmdValid = true
      ∧ decodeCommand s.pins.cmdWord = .ok (.setiv .left 64#8) ∧ (Instr.setiv .left 64#8).isSetter = true
      ∧ (Instr.setiv .left 64#8).inRange = false :=
  ⟨of_next? (by decide), by decide⟩
/-- OneWholeFrameAtATime asks only for a step: here one that sends. -/
theorem witness_OneWholeFrameAtATime :
    ∃ t, step setdmWaiting = .next t ∧ t.wire = [0x0A#8, 0x08#8] :=
  of_next? (by decide : next? (step setdmWaiting) (·.wire) = some [0x0A#8, 0x08#8])
theorem witness_InRangeOperationsHaveAPlan : (Instr.setmix .right 7#8 7#8).inRange = true := by decide

/-- RESET at its last frame, answered `Ok`, meets the invariant: the largest `SEQ.K`. -/
theorem witness_FrameIndexIsAtMostFourteen : resetLast.Inv ∧ resetLast.running = true := by
  refine ⟨⟨cfg_default_wf, rfl, by decide, by decide, by decide, fun _ => by decide, fun _ => ?_⟩, by decide⟩
  exact ⟨.reset, resetPlan, ⟨[0x0A00#16], .mute false⟩, by decide, rfl, by decide, by decide, rfl, by decide, by decide, rfl⟩
/-- A running setter whose frame goes out at this edge meets the invariant and steps. -/
theorem witness_OnlyFramesOfTheMapGoOut : setdmWaiting.Inv ∧ ∃ t, step setdmWaiting = .next t ∧ t.wire = [0x0A#8, 0x08#8] := by
  refine ⟨⟨cfg_default_wf, rfl, by decide, by decide, by decide, fun h => absurd rfl h, fun _ => ?_⟩,
    witness_OneWholeFrameAtATime⟩
  exact ⟨.setdm 1#8, [⟨[0x0A08#16], .mute true⟩], ⟨[0x0A08#16], .mute true⟩, by decide, rfl, by decide, rfl, rfl, by decide,
    by decide, rfl⟩
/-- A run of SETDM: its frame goes out, is answered `Ok` at once, and the response is never taken. -/
def setdmRun : Nat → State
  | 0 => setdmWaiting
  | 1 => { setdmWaiting with
      tx := some 0x0A08#16, wire := [0x0A#8, 0x08#8], pins := { idlePins with txDone := true }, tick := 1 }
  | n + 2 => { setdmWaiting with
      m := { Mirror.zero with mute := true }, seq := ⟨true, 0x80000001#32, 1#4, 1#4, .mute true⟩,
      rsp := some ⟨.ok, 0#16⟩, chip := [(0x05, 0x008#9)], wire := [0x0A#8, 0x08#8], tick := n + 2 }
theorem setdmRun_isRun : IsRun setdmRun := by
  intro n
  match n with
  | 0 => exact ⟨_, { idlePins with txDone := true }, rfl, rfl⟩
  | 1 => exact ⟨_, idlePins, rfl, rfl⟩
  | n + 2 => exact ⟨_, idlePins, rfl, rfl⟩
theorem witness_FairTransportCompletesEveryCommand :
    IsRun setdmRun ∧ TransportFair setdmRun ∧ (∀ n, (setdmRun n).pins.rstN = true) ∧ (setdmRun 0).Inv
      ∧ (setdmRun 0).running = true := by
  refine ⟨setdmRun_isRun, fun n h => ?_, fun n => ?_, witness_OnlyFramesOfTheMapGoOut.1, by decide⟩
  · exact absurd rfl (h (n + 2) (by omega)).2
  · match n with
    | 0 => rfl
    | 1 => rfl
    | n + 2 => rfl
theorem witness_EveryStepKeepsTheInvariant : resetLast.Inv ∧ ∃ t, step resetLast = .next t := by
  obtain ⟨t, h, -⟩ := witness_ReadyOnlyAfterACompleteReset
  exact ⟨witness_FrameIndexIsAtMostFourteen.1, t, h⟩
/-- The fatal block meets the invariant. -/
theorem witness_TheMachineNeverStops :
    ({ inMode .fatal with faultValid := true, faultCmd := 0x50000008#32 } : State).Inv :=
  ⟨cfg_default_wf, rfl, by decide, by decide, by decide, fun h => absurd rfl h, fun h => absurd h (by decide)⟩
theorem witness_TheCodecIsNeverRead : ∃ t, step resetLast = .next t := witness_EveryStepKeepsTheInvariant.2
/-- SETPM whose second frame faults, and RESET whose first frame does. -/
theorem witness_RunningACommandIsItsExecProcedure :
    (let i := Instr.setpm 0xFF#8
     let xs := [(true, idlePins, idlePins), (false, idlePins, idlePins)]
     let s := presenting .ready i (answerEdges xs)
     s.presents i ∧ s.cfg.wf ∧ (i = .reset ∨ i.isSetter = true ∧ s.mode = .ready) ∧ i.inRange = true
       ∧ (∃ p, plan s.cfg i = .ok p ∧ xs.length = (planFrames p).length) ∧ s.future = answerEdges xs ++ [])
    ∧ (let xs := List.replicate 15 (false, idlePins, idlePins)
       let s := presenting .uninit .reset (answerEdges xs)
       s.presents .reset ∧ s.cfg.wf ∧ (Instr.reset = .reset ∨ Instr.reset.isSetter = true ∧ s.mode = .ready)
         ∧ Instr.reset.inRange = true ∧ (∃ p, plan s.cfg .reset = .ok p ∧ xs.length = (planFrames p).length)
         ∧ s.future = answerEdges xs ++ []) := by
  refine ⟨⟨presents_of_ready _ _, cfg_default_wf, .inr ⟨rfl, rfl⟩, rfl,
      ⟨[⟨[0x32FC#16, 0x35E0#16], .power (PowerConfig.ofByte 0xFF#8)⟩], by decide, rfl⟩, rfl⟩,
    ⟨⟨rfl, rfl, rfl, rfl, rfl⟩, cfg_default_wf, .inl rfl, rfl, ⟨resetPlan, by decide, by decide⟩, rfl⟩⟩

end Sys2Proof.Tests
end

section
/-! The packer, bit by bit: what `mask` and `pack` hold at every position, and the obligations that follow (40_packer.md
R78, R79, R80). -/

namespace Sys2Proof.Machine

/-- Every bit of `mask n`, the positions outside the word included. -/
theorem mask_getLsbD (n i : Nat) : (mask n).getLsbD i = (decide (i < 16) && decide (i < n)) := by
  unfold mask
  split_ifs with hzero hlt
  · simp [hzero]
  · simp [BitVec.getLsbD_ofNat, Nat.testBit_two_pow_sub_one]
  · have hall : (0xFFFF#16).getLsbD i = decide (i < 16) := BitVec.getLsbD_allOnes (v := 16)
    have : i < 16 → i < n := by omega
    simpa [hall] using this

/-- All that an answer of `pack` says: the range lies in the domain, the value fits, and the word is the shifted value. -/
theorem pack_eq_ok_iff {v start stop : Nat} {w : BitVec 16} :
    pack v start stop = .ok w ↔
      (start ≤ stop ∧ stop ≤ 16) ∧ v ≤ 2 ^ (stop - start) - 1
        ∧ (BitVec.ofNat 16 v &&& mask (stop - start)) <<< start = w := by
  unfold pack
  split_ifs with hdomain hfits <;> simp [*]

/-- A packed word holds the value's bits from `start` on, and 0 at every position outside `[start, stop)`. -/
theorem pack_getLsbD {v start stop : Nat} {w : BitVec 16} (h : pack v start stop = .ok w) (i : Nat) :
    w.getLsbD i = (decide (start ≤ i ∧ i < stop) && v.testBit (i - start)) := by
  obtain ⟨⟨hle, hstop⟩, -, rfl⟩ := pack_eq_ok_iff.mp h
  rw [BitVec.getLsbD_shiftLeft, BitVec.getLsbD_and, BitVec.getLsbD_ofNat, mask_getLsbD]
  by_cases hin : start ≤ i ∧ i < stop
  · have hword : i < 16 ∧ ¬ i < start ∧ i - start < 16 ∧ i - start < stop - start := by omega
    simp [hin, hword]
  · have hout : i < start ∨ ¬ i - start < stop - start := by omega
    rcases hout with hout | hout <;> simp [hin, hout]

/-- A value that fits its field has no bit at or above the field's width. -/
theorem testBit_eq_false_of_fits {v n i : Nat} (hfits : v ≤ 2 ^ n - 1) (hi : n ≤ i) : v.testBit i = false := by
  have hlt : v < 2 ^ n := by have := Nat.two_pow_pos n; omega
  exact Nat.testBit_lt_two_pow (hlt.trans_le (Nat.pow_le_pow_right (by decide) hi))

/-- A field is read back as `v` from any word that holds the bits of `v` there, whatever the word holds elsewhere. -/
theorem readField_eq_of_getLsbD {v start stop : Nat} {w : BitVec 16} (hstop : stop ≤ 16)
    (hfits : v ≤ 2 ^ (stop - start) - 1)
    (hbits : ∀ i, start ≤ i → i < stop → w.getLsbD i = v.testBit (i - start)) :
    ((w >>> start) &&& mask (stop - start)).toNat = v := by
  apply Nat.eq_of_testBit_eq
  intro i
  rw [BitVec.testBit_toNat, BitVec.getLsbD_and, BitVec.getLsbD_ushiftRight, mask_getLsbD]
  by_cases hi : i < stop - start
  · have hword : i < 16 := by omega
    simp [hi, hword, hbits (start + i) (by omega) (by omega)]
  · simp [hi, testBit_eq_false_of_fits hfits (Nat.le_of_not_lt hi)]

/-- Settles O1: inside the word, `mask_getLsbD` leaves only `i < n`. -/
theorem maskSetsTheLowBits : Obligations.MaskSetsTheLowBits := by
  intro n i hi
  simp only [mask_getLsbD, hi, decide_true, Bool.true_and]

/-- Settles O2: the packed word's bits are those of `v` in the field and 0 outside it (`pack_getLsbD`). -/
theorem packRoundTrip : Obligations.PackRoundTrip := by
  intro v start stop hle hstop hfits
  have hpack := pack_eq_ok_iff.mpr ⟨⟨hle, hstop⟩, hfits, rfl⟩
  refine ⟨_, hpack, readField_eq_of_getLsbD hstop hfits fun i hlo hhi => ?_, fun i hout => ?_⟩
  · simp [pack_getLsbD hpack, hlo, hhi]
  · have hnot : ¬ (start ≤ i ∧ i < stop) := by omega
    simp [pack_getLsbD hpack, hnot]

/-- Settles O3: inside the domain the only test left is the width of the value. -/
theorem packFailsOnAWideValue : Obligations.PackFailsOnAWideValue := by
  intro v start stop hle hstop hwide
  rw [pack, if_pos ⟨hle, hstop⟩, if_neg (Nat.not_le_of_gt hwide)]

end Sys2Proof.Machine
end

section
/-! The decoders against the encoder (30_encoding.md sections 2, 3 and 6): a word is selected by at most one row, and a row
fixes every bit it does not read. -/

namespace Sys2Proof

/-- No word belongs to both rows: they disagree on a bit that both masks hold. -/
abbrev Row.Apart {n : Nat} (r q : Row n) : Prop := r.pattern &&& q.mask ≠ q.pattern &&& r.mask

theorem commandRows_apart :
commandRows.Pairwise Row.Apart := by decide

theorem frameRows_apart :
    frameRows.Pairwise Row.Apart := by decide

theorem Row.selects_iff {n : Nat} {r : Row n} {w : BitVec n} : r.selects w = true ↔ w &&& r.mask = r.pattern := by
  simp [Row.selects]

/-- A word selected by two rows shows the same bits to both masks. -/
theorem Row.not_selects_of_apart {n : Nat} {r q : Row n} {w : BitVec n}
    (hrq : r.Apart q) (hq : q.selects w = true) : r.selects w = false := by
  by_contra hr
  rw [Bool.not_eq_false, Row.selects_iff] at hr
  rw [Row.selects_iff] at hq
  apply hrq
  rw [← hr, ← hq, BitVec.and_assoc, BitVec.and_assoc, BitVec.and_comm r.mask]

/-- The row found in a table of rows that lie apart is the one that selects the word. -/
theorem find?_selects {n : Nat} {rows : List (Row n)} {r : Row n} {w : BitVec n}
    (hrows : rows.Pairwise Row.Apart) (hr : r ∈ rows)
    (hw : r.selects w = true) : rows.find? (·.selects w) = some r := by
  induction rows with
  | nil => simp at hr
  | cons q rows ih =>
    obtain ⟨hq, hrows⟩ := List.pairwise_cons.mp hrows
    rcases List.mem_cons.mp hr with rfl | hr
    · exact List.find?_cons_of_pos hw
    · rw [List.find?_cons_of_neg (by simp [Row.not_selects_of_apart (hq r hr) hw])]
      exact ih hrows hr

open Laws.EncodingSelectsRow in
/-- The rows of the table select and read back the encoding of every instruction. -/
theorem encoding_selects_row : ∀ i : Instr, Laws.EncodingSelectsRow.Statement i
  | .reset => reset
  | .setiv ch a => setiv ch a
  | .setov ch a => setov ch a
  | .setpm a => setpm a
  | .setmix ch a b => setmix ch a b
  | .setdai a => setdai a
  | .setdv ch a => setdv ch a
  | .setdm a => setdm a
  | .getiv ch => getiv ch
  | .getov ch => getov ch
  | .getpm => getpm
  | .getmix ch => getmix ch
  | .getdv ch => getdv ch
  | .frameLeftInputVolume m v => frameLeftInputVolume m v
  | .frameRightInputVolume m v => frameRightInputVolume m v
  | .frameLeftOutput1Volume v => frameLeftOutput1Volume v
  | .frameRightOutput1Volume v => frameRightOutput1Volume v
  | .frameAdcDacControl m => frameAdcDacControl m
  | .frameAudioInterface wl => frameAudioInterface wl
  | .frameLeftDacVolume v => frameLeftDacVolume v
  | .frameRightDacVolume v => frameRightDacVolume v
  | .frameReset => frameReset
  | .framePowerManagement1 pl pr al ar => framePowerManagement1 pl pr al ar
  | .framePowerManagement2 dl dr lo ro => framePowerManagement2 dl dr lo ro
  | .frameLeftOutMix1 e att => frameLeftOutMix1 e att
  | .frameLeftOutMix2 e att => frameLeftOutMix2 e att
  | .frameRightOutMix1 e att => frameRightOutMix1 e att
  | .frameRightOutMix2 e att => frameRightOutMix2 e att

theorem decodeCommand_of_selects {r : Row 32} {w : Command} (hr : r ∈ commandRows) (hw : r.selects w = true) :
    decodeCommand w = .ok (r.read w) := by
  rw [decodeCommand, find?_selects commandRows_apart hr hw]

theorem decodeFrame_of_selects {r : Row 16} {f : Frame} (hr : r ∈ frameRows) (hf : r.selects f = true) :
    decodeFrame f = .ok (r.read f) := by
  rw [decodeFrame, find?_selects frameRows_apart hr hf]

/-- Settles O7: the row that selects the encoding is the only one, so the decoder finds it. -/
theorem decodeOfEncode : Obligations.DecodeOfEncode := by
  intro i
  have hi := encoding_selects_row i
  unfold Laws.EncodingSelectsRow.Statement at hi
  cases hw : encode i with
  | command w =>
    simp only [hw] at hi
    obtain ⟨r, hr, hsel, hread⟩ := hi
    rw [decode, decodeCommand_of_selects hr hsel, hread]
  | frame f =>
    simp only [hw] at hi
    obtain ⟨r, hr, hsel, hread⟩ := hi
    rw [decode, decodeFrame_of_selects hr hsel, hread]

/-- A word that decodes was selected by a row, and read by it. -/
theorem decodeCommand_eq_ok {w : Command} {i : Instr} (h : decodeCommand w = .ok i) :
    ∃ r ∈ commandRows, r.selects w = true ∧ r.read w = i := by
  unfold decodeCommand at h
  cases hf : commandRows.find? (·.selects w) with
  | none => simp [hf] at h
  | some r =>
    simp only [hf, Except.ok.injEq] at h
    exact ⟨r, List.mem_of_find?_eq_some hf, by simpa using List.find?_some hf, h⟩

theorem decodeFrame_eq_ok {f : Frame} {i : Instr} (h : decodeFrame f = .ok i) :
    ∃ r ∈ frameRows, r.selects f = true ∧ r.read f = i := by
  unfold decodeFrame at h
  cases hf : frameRows.find? (·.selects f) with
  | none => simp [hf] at h
  | some r =>
    simp only [hf, Except.ok.injEq] at h
    exact ⟨r, List.mem_of_find?_eq_some hf, by simpa using List.find?_some hf, h⟩

/-- Field OP, `cmd[31:28]` (30_encoding.md R47). -/
def fieldOp (w : Command) : BitVec 4 := w.extractLsb' 28 4

/-- Field RSVD, `cmd[27:17]` (R47). -/
def fieldRsvd (w : Command) : BitVec 11 := w.extractLsb' 17 11

/-- Field CH as a bit, `cmd[16]` (R47). -/
def fieldChBit (w : Command) : BitVec 1 := w.extractLsb' 16 1

/-- A word is its five fields (30_encoding.md R47). -/
theorem fields_append (w : Command) : fieldOp w ++ fieldRsvd w ++ fieldChBit w ++ fieldB w ++ fieldA w = w := by
  unfold fieldOp fieldRsvd fieldChBit fieldB fieldA
  rw [BitVec.extractLsb'_append_extractLsb'_eq_extractLsb' (by decide),
    BitVec.extractLsb'_append_extractLsb'_eq_extractLsb' (by decide),
    BitVec.extractLsb'_append_extractLsb'_eq_extractLsb' (by decide),
    BitVec.extractLsb'_append_extractLsb'_eq_extractLsb' (by decide), BitVec.extractLsb'_eq_self]

/-- Two words are equal field by field. -/
theorem command_eq_iff {w v : Command} :
    w = v ↔ fieldOp w = fieldOp v ∧ fieldRsvd w = fieldRsvd v ∧ fieldChBit w = fieldChBit v ∧ fieldB w = fieldB v
      ∧ fieldA w = fieldA v := by
  constructor
  · rintro rfl; simp
  · rintro ⟨hop, hrsvd, hch, hb, ha⟩
    rw [← fields_append w, hop, hrsvd, hch, hb, ha, fields_append]

/-- A mask acts on each field by itself. -/
theorem and_eq_iff_fields {w mask pattern : Command} :
    w &&& mask = pattern ↔ fieldOp w &&& fieldOp mask = fieldOp pattern
      ∧ fieldRsvd w &&& fieldRsvd mask = fieldRsvd pattern ∧ fieldChBit w &&& fieldChBit mask = fieldChBit pattern
      ∧ fieldB w &&& fieldB mask = fieldB pattern ∧ fieldA w &&& fieldA mask = fieldA pattern := by
  simp only [command_eq_iff, fieldOp, fieldRsvd, fieldChBit, fieldB, fieldA, BitVec.extractLsb'_and]

theorem fieldCh_bit (w : Command) : (fieldCh w).bit = fieldChBit w := by
  apply BitVec.eq_of_getLsbD_eq
  intro i hi
  obtain rfl : i = 0 := by omega
  rw [fieldChBit, BitVec.getLsbD_extractLsb', fieldCh]
  cases w.getLsbD 16 <;> rfl

/-- A command word with RSVD 0 is built from its fields as the encoder builds one. -/
theorem commandWord_fields {w : Command} (h : fieldRsvd w = 0#11) :
    commandWord (fieldOp w) (fieldCh w) (fieldB w) (fieldA w) = w := by
  conv_rhs => rw [← fields_append w, h]
  rw [commandWord, fieldCh_bit]

/-- A row's mask holds OP and RSVD, and holds or leaves each operand field as a whole; its pattern is 0 but for OP. -/
theorem commandRows_fields : ∀ r ∈ commandRows,
    (fieldOp r.mask = BitVec.allOnes 4 ∧ fieldRsvd r.mask = BitVec.allOnes 11
      ∧ (fieldChBit r.mask = 0#1 ∨ fieldChBit r.mask = BitVec.allOnes 1)
      ∧ (fieldB r.mask = 0#8 ∨ fieldB r.mask = BitVec.allOnes 8)
      ∧ (fieldA r.mask = 0#8 ∨ fieldA r.mask = BitVec.allOnes 8))
    ∧ fieldRsvd r.pattern = 0#11 ∧ fieldChBit r.pattern = 0#1 ∧ fieldB r.pattern = 0#8 ∧ fieldA r.pattern = 0#8 := by
  decide

/-- A field under a mask that holds or leaves it as a whole is 0 when it must be. -/
theorem and_mask_eq_zero_iff {n : Nat} {x m : BitVec n} (hm : m = 0#n ∨ m = BitVec.allOnes n) :
    x &&& m = 0#n ↔ (m ≠ 0#n → x = 0#n) := by
  by_cases hz : m = 0#n
  · simp [hz]
  · obtain rfl := hm.resolve_left hz
    simp [hz]

/-- What a command row asks of a word: its opcode, and 0 in RSVD and in every field its mask holds (30_encoding.md R50). -/
theorem commandRow_selects_iff {r : Row 32} (hr : r ∈ commandRows) (w : Command) :
    r.selects w = true ↔ fieldOp w = fieldOp r.pattern ∧ fieldRsvd w = 0#11 ∧ (fieldChBit r.mask ≠ 0#1 → fieldChBit w = 0#1)
      ∧ (fieldB r.mask ≠ 0#8 → fieldB w = 0#8) ∧ (fieldA r.mask ≠ 0#8 → fieldA w = 0#8) := by
  obtain ⟨⟨hop, hrsvd, hch, hb, ha⟩, hrsvd', hch', hb', ha'⟩ := commandRows_fields r hr
  rw [Row.selects_iff, and_eq_iff_fields, hop, hrsvd, hrsvd', hch', hb', ha', BitVec.and_allOnes, BitVec.and_allOnes,
    and_mask_eq_zero_iff hch, and_mask_eq_zero_iff hb, and_mask_eq_zero_iff ha]

/-- A word is illegal when no row selects it. -/
theorem decodeCommand_eq_error_iff {w : Command} :
    decodeCommand w = .error .illegalCommand ↔ ∀ r ∈ commandRows, r.selects w ≠ true := by
  rw [← List.find?_eq_none, decodeCommand]
  cases commandRows.find? (·.selects w) <;> simp

/-- Settles O9: the rows ask for the opcodes `0x1` to `0xD`, RSVD 0 and 0 in the unused fields (`commandRow_selects_iff`). -/
theorem illegalCommandWords : Obligations.IllegalCommandWords := by
  intro w
  rw [decodeCommand_eq_error_iff, forall₂_congr fun r hr => not_congr (commandRow_selects_iff hr w)]
  simp only [show w.extractLsb' 28 4 = fieldOp w from rfl, show w.extractLsb' 17 11 = fieldRsvd w from rfl,
    show w.extractLsb' 16 1 = fieldChBit w from rfl, show w.extractLsb' 8 8 = fieldB w from rfl,
    show w.extractLsb' 0 8 = fieldA w from rfl]
  generalize fieldOp w = op, fieldRsvd w = rsvd, fieldChBit w = ch, fieldB w = b, fieldA w = a
  -- Every field but OP enters only by whether it is 0.
  by_cases hrsvd : rsvd = 0#11 <;> by_cases hch : ch = 0#1 <;> by_cases hb : b = 0#8 <;> by_cases ha : a = 0#8 <;>
    simp only [hrsvd, hch, hb, ha, ne_eq] <;> revert op <;> decide

/-- A command row reads the operand fields that its mask leaves, and takes the others to be 0. -/
theorem encode_commandRow_read : ∀ r ∈ commandRows, ∀ w : Command,
    encode (r.read w) = .command (commandWord (fieldOp r.pattern) (if fieldChBit r.mask ≠ 0#1 then .left else fieldCh w)
      (if fieldB r.mask ≠ 0#8 then 0#8 else fieldB w) (if fieldA r.mask ≠ 0#8 then 0#8 else fieldA w)) := by
  simp only [commandRows, List.forall_mem_cons, List.not_mem_nil, false_imp_iff, implies_true, and_true]
  exact ⟨fun _ => rfl, fun _ => rfl, fun _ => rfl, fun _ => rfl, fun _ => rfl, fun _ => rfl, fun _ => rfl, fun _ => rfl,
    fun _ => rfl, fun _ => rfl, fun _ => rfl, fun _ => rfl, fun _ => rfl⟩

theorem fieldCh_eq_left {w : Command} (h : fieldChBit w = 0#1) : fieldCh w = .left := by
  rw [← fieldCh_bit] at h
  cases hc : fieldCh w with
  | left => rfl
  | right => simp [hc, Channel.bit] at h

/-- A row that selects a command word reads the instruction that the word encodes. -/
theorem encode_read_of_selects {r : Row 32} (hr : r ∈ commandRows) {w : Command} (hw : r.selects w = true) :
    encode (r.read w) = .command w := by
  obtain ⟨hop, hrsvd, hch, hb, ha⟩ := (commandRow_selects_iff hr w).mp hw
  have hch' : (if fieldChBit r.mask ≠ 0#1 then .left else fieldCh w) = fieldCh w :=
    ite_eq_right_iff.mpr fun h => (fieldCh_eq_left (hch h)).symm
  have hb' : (if fieldB r.mask ≠ 0#8 then 0#8 else fieldB w) = fieldB w := ite_eq_right_iff.mpr fun h => (hb h).symm
  have ha' : (if fieldA r.mask ≠ 0#8 then 0#8 else fieldA w) = fieldA w := ite_eq_right_iff.mpr fun h => (ha h).symm
  rw [encode_commandRow_read r hr, hch', hb', ha', ← hop, commandWord_fields hrsvd]

/-! The bits of a frame's payload that a row does not read are fixed, so the payload is rebuilt from those it reads. -/

theorem inputVolumePayload_of_bits : ∀ p : Payload, p &&& 0x140#9 = 0x100#9 →
    inputVolumePayload (p.getLsbD 7) (p.extractLsb' 0 6) = p := by decide +kernel

theorem outputVolumePayload_of_bits : ∀ p : Payload, p &&& 0x180#9 = 0x100#9 →
    outputVolumePayload (p.extractLsb' 0 7) = p := by decide +kernel

theorem adcDacControlPayload_of_bits : ∀ p : Payload, p &&& 0x1F7#9 = 0x000#9 →
    adcDacControlPayload (p.getLsbD 3) = p := by decide +kernel

theorem audioInterfacePayload_of_bits : ∀ p : Payload, p &&& 0x1F3#9 = 0x002#9 →
    audioInterfacePayload (p.extractLsb' 2 2) = p := by decide +kernel

theorem dacVolumePayload_of_bits : ∀ p : Payload, p &&& 0x100#9 = 0x100#9 →
    dacVolumePayload (p.extractLsb' 0 8) = p := by decide +kernel

theorem power1Payload_of_bits : ∀ p : Payload, p &&& 0x1C3#9 = 0x0C0#9 →
    power1Payload (p.getLsbD 5) (p.getLsbD 4) (p.getLsbD 3) (p.getLsbD 2) = p := by decide +kernel

theorem power2Payload_of_bits : ∀ p : Payload, p &&& 0x01F#9 = 0x000#9 →
    power2Payload (p.getLsbD 8) (p.getLsbD 7) (p.getLsbD 6) (p.getLsbD 5) = p := by decide +kernel

theorem outMix1Payload_of_bits (leftDac : Bool) : ∀ p : Payload, p &&& 0x10F#9 = BitVec.ofBool leftDac ++ 0x03#8 →
    outMix1Payload leftDac (p.getLsbD 7) (p.extractLsb' 4 3) = p := by revert leftDac; decide +kernel

theorem outMix2Payload_of_bits (rightDac : Bool) : ∀ p : Payload, p &&& 0x10F#9 = BitVec.ofBool rightDac ++ 0x00#8 →
    outMix2Payload rightDac (p.getLsbD 7) (p.extractLsb' 4 3) = p := by revert rightDac; decide +kernel

/-- A frame is its address and its payload (30_encoding.md R58). -/
theorem frameWord_addr_payload (f : Frame) : frameWord (Machine.frameAddr f) (Machine.framePayload f) = f := by
  rw [frameWord, Machine.frameAddr, Machine.framePayload,
    BitVec.extractLsb'_append_extractLsb'_eq_extractLsb' (by decide), BitVec.extractLsb'_eq_self]

@[simp] theorem frameAddr_frameWord (addr : BitVec 7) (p : Payload) : Machine.frameAddr (frameWord addr p) = addr :=
  BitVec.extractLsb'_append_eq_left

@[simp] theorem framePayload_frameWord (addr : BitVec 7) (p : Payload) : Machine.framePayload (frameWord addr p) = p :=
  BitVec.extractLsb'_append_eq_right

/-- A field of the payload is read from the frame at the same place. -/
theorem frameWord_extractLsb' (addr : BitVec 7) (p : Payload) {start len : Nat} (h : start + len ≤ 9) :
    (frameWord addr p).extractLsb' start len = p.extractLsb' start len :=
  BitVec.extractLsb'_append_eq_of_add_le h

/-- What a frame row asks of a frame: its address, and its pattern under its mask in the payload (30_encoding.md R59). -/
theorem frameRow_selects {r : Row 16} (hr : r ∈ frameRows) {f : Frame} (hf : r.selects f = true) :
    Machine.frameAddr f = Machine.frameAddr r.pattern
      ∧ Machine.framePayload f &&& Machine.framePayload r.mask = Machine.framePayload r.pattern := by
  have hmask : ∀ r ∈ frameRows, Machine.frameAddr r.mask = BitVec.allOnes 7 := by decide
  rw [Row.selects_iff] at hf
  rw [← hf, Machine.frameAddr, Machine.frameAddr, Machine.framePayload, Machine.framePayload, Machine.framePayload,
    BitVec.extractLsb'_and, BitVec.extractLsb'_and]
  exact ⟨by rw [← Machine.frameAddr, ← Machine.frameAddr, hmask r hr, BitVec.and_allOnes], rfl⟩

/-- A bit of the payload is read from the frame at the same place. -/
theorem frameWord_getLsbD_payload (addr : BitVec 7) (p : Payload) {i : Nat} (h : i < 9) :
    (frameWord addr p).getLsbD i = p.getLsbD i := by
  rw [frameWord_getLsbD, if_pos h]

/-- A row that selects a frame reads the instruction that the frame encodes. -/
theorem encode_read_of_selects_frame {r : Row 16} (hr : r ∈ frameRows) {f : Frame} (hf : r.selects f = true) :
    encode (r.read f) = .frame f := by
  obtain ⟨addr, p, rfl⟩ : ∃ addr p, f = frameWord addr p := ⟨_, _, (frameWord_addr_payload f).symm⟩
  obtain ⟨haddr, hp⟩ := frameRow_selects hr hf
  rw [frameAddr_frameWord] at haddr
  rw [framePayload_frameWord] at hp
  subst haddr
  simp only [frameRows, List.mem_cons, List.not_mem_nil, or_false] at hr
  rcases hr with rfl | rfl | rfl | rfl | rfl | rfl | rfl | rfl | rfl | rfl | rfl | rfl | rfl | rfl | rfl <;>
    simp (disch := decide) only [encode, frameWord_getLsbD_payload, frameWord_extractLsb']
  · rw [inputVolumePayload_of_bits p hp]; rfl
  · rw [inputVolumePayload_of_bits p hp]; rfl
  · rw [outputVolumePayload_of_bits p hp]; rfl
  · rw [outputVolumePayload_of_bits p hp]; rfl
  · rw [adcDacControlPayload_of_bits p hp]; rfl
  · rw [audioInterfacePayload_of_bits p hp]; rfl
  · rw [dacVolumePayload_of_bits p hp]; rfl
  · rw [dacVolumePayload_of_bits p hp]; rfl
  · have h0 : p = 0#9 := BitVec.and_allOnes.symm.trans hp
    rw [h0]; rfl
  · rw [power1Payload_of_bits p hp]; rfl
  · rw [power2Payload_of_bits p hp]; rfl
  · rw [outMix1Payload_of_bits true p hp]; rfl
  · rw [outMix2Payload_of_bits false p hp]; rfl
  · rw [outMix1Payload_of_bits false p hp]; rfl
  · rw [outMix2Payload_of_bits true p hp]; rfl

/-- Settles O8: the row that selects the word reads the instruction the word encodes. -/
theorem encodeOfDecode : Obligations.EncodeOfDecode := by
  intro w i hdecode
  cases w with
  | command w =>
    obtain ⟨r, hr, hsel, rfl⟩ := decodeCommand_eq_ok hdecode
    exact encode_read_of_selects hr hsel
  | frame f =>
    obtain ⟨r, hr, hsel, rfl⟩ := decodeFrame_eq_ok hdecode
    exact encode_read_of_selects_frame hr hsel

/-- A frame decodes to the instruction it encodes, and to no other. -/
theorem decodeFrame_eq_ok_iff {f : Frame} {i : Instr} : decodeFrame f = .ok i ↔ encode i = .frame f := by
  constructor
  · exact encodeOfDecode (.frame f) i
  · intro h
    have hi := decodeOfEncode i
    rwa [h] at hi

/-- A command word decodes to the command it encodes, and to no other. -/
theorem decodeCommand_eq_ok_iff {w : Command} {i : Instr} : decodeCommand w = .ok i ↔ encode i = .command w := by
  constructor
  · exact encodeOfDecode (.command w) i
  · intro h
    have hi := decodeOfEncode i
    rwa [h] at hi

/-- The strict decoder takes the frames of well-formed instructions. -/
theorem decodeProduced_eq_ok_iff {f : Frame} {i : Instr} :
    decodeProduced f = .ok i ↔ encode i = .frame f ∧ i.wellFormed = true := by
  rw [← decodeFrame_eq_ok_iff, decodeProduced]
  cases decodeFrame f with
  | error e => simp
  | ok j =>
    dsimp only
    by_cases hj : j.wellFormed = true
    · rw [if_pos hj, Except.ok.injEq]
      exact ⟨fun h => ⟨h, h ▸ hj⟩, And.left⟩
    · rw [if_neg hj, Except.ok.injEq]
      exact ⟨nofun, fun ⟨h, hi⟩ => absurd (h ▸ hi) hj⟩

/-- The strict decoder has one error. -/
theorem decodeProduced_error {f : Frame} {e : DecodeError} (h : decodeProduced f = .error e) : e = .notProduced := by
  unfold decodeProduced decodeFrame at h
  cases hf : frameRows.find? (·.selects f) with
  | none => simpa [hf] using h.symm
  | some r =>
    simp only [hf] at h
    split_ifs at h
    simpa using h.symm

/-- Settles O10: `decodeProduced_eq_ok_iff`, and the one error left where no instruction is. -/
theorem framesNotProducedAreRejected : Obligations.FramesNotProducedAreRejected := by
  refine ⟨fun f i => decodeProduced_eq_ok_iff, fun f hnone => ?_⟩
  cases hf : decodeProduced f with
  | error e => rw [decodeProduced_error hf]
  | ok i =>
    obtain ⟨hencode, hwf⟩ := decodeProduced_eq_ok_iff.mp hf
    exact absurd hencode (hnone i hwf)

/-- Settles O11: each word is the encoding of its instruction. -/
theorem wordsDecodeAsTheSpecWritesThem : Obligations.WordsDecodeAsTheSpecWritesThem := by
  simp only [Obligations.WordsDecodeAsTheSpecWritesThem, decodeCommand_eq_ok_iff, decodeFrame_eq_ok_iff]
  decide

/-- The number a frame is (30_encoding.md R58). -/
theorem frameWord_toNat (addr : BitVec 7) (p : Payload) : (frameWord addr p).toNat = addr.toNat * 512 + p.toNat := by
  rw [frameWord, BitVec.toNat_append, ← Nat.shiftLeft_add_eq_or_of_lt p.isLt, Nat.shiftLeft_eq]

/-- Settles O12: a frame's number is its address times 512 plus its payload (`frameWord_toNat`), and each payload layout
is evaluated over its own operand. -/
theorem frameLayouts : Obligations.FrameLayouts := by
  refine ⟨?_, ?_, ?_, ?_, ?_, ?_, ?_, ?_, ?_⟩ <;> simp only [Instr.frame, encode, frameWord_toNat]
  all_goals decide

end Sys2Proof
end

section
/-! The packer's words as wholes (40_packer.md sections 2 and 4): the fields of an assembled word, and a frame as its address
and payload. -/

namespace Sys2Proof.Machine

/-- Settles O4: outside the domain the first test fails. -/
theorem packOutsideItsDomainIsRefused : Obligations.PackOutsideItsDomainIsRefused := by
  intro v start stop hout
  rw [pack, if_neg (by omega)]

/-- The bits a field contributes to a word. -/
def Field.bit (f : Field) (i : Nat) : Bool := decide (f.start ≤ i ∧ i < f.stop) && f.value.testBit (i - f.start)

/-- Fields whose ranges lie in the word and whose values fit assemble to the OR of their bits. -/
theorem assemble_getLsbD (fs : List Field)
    (hfs : ∀ f ∈ fs, f.start ≤ f.stop ∧ f.stop ≤ 16 ∧ f.value ≤ 2 ^ (f.stop - f.start) - 1) :
    ∃ w, assemble fs = .ok w ∧ ∀ i, w.getLsbD i = fs.any (·.bit i) := by
  induction fs with
  | nil => exact ⟨0#16, rfl, fun i => by simp⟩
  | cons f fs ih =>
    obtain ⟨⟨hle, hstop, hfits⟩, hfs⟩ := List.forall_mem_cons.mp hfs
    obtain ⟨w, hw, hbits⟩ := ih hfs
    have hpack := pack_eq_ok_iff.mpr ⟨⟨hle, hstop⟩, hfits, rfl⟩
    refine ⟨_, by rw [assemble, hpack, hw], fun i => ?_⟩
    rw [BitVec.getLsbD_or, pack_getLsbD hpack, hbits, List.any_cons, Field.bit]

/-- At a position of one of several disjoint fields only that field contributes. -/
theorem any_bit_of_mem {fs : List Field} {f : Field} {i : Nat} (hf : f ∈ fs)
    (hdisjoint : fs.Pairwise (fun f g => f.stop ≤ g.start ∨ g.stop ≤ f.start)) (hlo : f.start ≤ i) (hhi : i < f.stop) :
    fs.any (·.bit i) = f.value.testBit (i - f.start) := by
  have hbit : f.bit i = f.value.testBit (i - f.start) := by simp [Field.bit, hlo, hhi]
  have hother : ∀ g ∈ fs, g.bit i = true → g = f := by
    intro g hg hgi
    by_contra hne
    have : Std.Symm (fun f g : Field => f.stop ≤ g.start ∨ g.stop ≤ f.start) := ⟨fun _ _ => Or.symm⟩
    have hpair := hdisjoint.forall hg hf hne
    simp only [Field.bit, Bool.and_eq_true, decide_eq_true_eq] at hgi
    omega
  rw [← hbit, Bool.eq_iff_iff, List.any_eq_true]
  exact ⟨fun ⟨g, hg, hgi⟩ => hother g hg hgi ▸ hgi, fun h => ⟨f, hf, h⟩⟩

/-- Settles O5: at the positions of a field the assembled word holds that field's bits (`any_bit_of_mem`). -/
theorem disjointFieldsReadBack : Obligations.DisjointFieldsReadBack := by
  intro fs hfs hdisjoint
  obtain ⟨w, hw, hbits⟩ := assemble_getLsbD fs hfs
  refine ⟨w, hw, fun f hf => ?_⟩
  obtain ⟨-, hstop, hfits⟩ := hfs f hf
  exact readField_eq_of_getLsbD hstop hfits fun i hlo hhi => (hbits i).trans (any_bit_of_mem hf hdisjoint hlo hhi)

/-- `frame` of an address and a payload of the right widths is the frame word of the two. -/
theorem frame_eq_ok (addr : BitVec 7) (p : Payload) : frame addr.toNat p.toNat = .ok (frameWord addr p) := by
  obtain ⟨w, hw, hbits⟩ := assemble_getLsbD [⟨addr.toNat, 9, 16⟩, ⟨p.toNat, 0, 9⟩] (by simp; omega)
  rw [frame, hw, Except.ok.injEq]
  apply BitVec.eq_of_getLsbD_eq
  intro i hi
  rw [hbits, frameWord_getLsbD]
  by_cases hlow : i < 9
  · have hnot : ¬ 9 ≤ i := by omega
    simp [Field.bit, hlow, hnot, BitVec.testBit_toNat]
  · have hin : 9 ≤ i := by omega
    simp [Field.bit, hlow, hin, hi, BitVec.testBit_toNat]

/-- Settles O6: `frame_eq_ok` inside the domain; outside it the first field that does not fit raises ValueOutOfRange. -/
theorem frameHoldsAddressAndPayload : Obligations.FrameHoldsAddressAndPayload := by
  refine ⟨fun addr data9 haddr hdata => ?_, fun addr data9 hwide => ?_⟩
  · have ha : (BitVec.ofNat 7 addr).toNat = addr := Nat.mod_eq_of_lt (by omega)
    have hd : (BitVec.ofNat 9 data9).toNat = data9 := Nat.mod_eq_of_lt (by omega)
    refine ⟨frameWord (BitVec.ofNat 7 addr) (BitVec.ofNat 9 data9), ?_, ?_, ?_, ?_⟩
    · rw [← frame_eq_ok, ha, hd]
    · rw [frameWord_toNat, ha, hd]
    · rw [frameAddr_frameWord, ha]
    · rw [framePayload_frameWord, hd]
  · by_cases haddr : 127 < addr
    · rw [frame, assemble, packFailsOnAWideValue addr 9 16 (by decide) (by decide) (by omega)]
    · have hpack : pack addr 9 16 = .ok _ := pack_eq_ok_iff.mpr ⟨by decide, by omega, rfl⟩
      rw [frame, assemble, hpack, assemble, packFailsOnAWideValue data9 0 9 (by decide) (by decide) (by omega)]

end Sys2Proof.Machine
end

section
/-! The plans (41_setters.md sections 2 to 8, 42_reset_and_getters.md section 1): an operation in range has one, and what every
such plan is like: few frames, none of its sub-operations empty, each frame one of the map. -/

namespace Sys2Proof.Machine

/-- The frame is one of the fifteen layouts with its fixed and derived bits, at an address of the map, and payload bit 7 is
0 at the output-volume addresses (30_encoding.md R70, R61, 20_memory.md R40). -/
def ofMap (f : Frame) : Bool :=
  (decodeProduced f).isOk && usedAddresses.contains (frameAddr f)
    && !((frameAddr f == 0x02#7 || frameAddr f == 0x03#7) && f.getLsbD 7)

theorem ofMap_iff {f : Frame} :
    ofMap f = true ↔ (∃ i, decodeProduced f = .ok i) ∧ frameAddr f ∈ usedAddresses
      ∧ (frameAddr f = 0x02#7 ∨ frameAddr f = 0x03#7 → f.getLsbD 7 = false) := by
  have hok : (decodeProduced f).isOk = true ↔ ∃ i, decodeProduced f = .ok i := by
    cases decodeProduced f <;> simp [Except.isOk, Except.toBool]
  have hbit : (!((frameAddr f == 0x02#7 || frameAddr f == 0x03#7) && f.getLsbD 7)) = true
      ↔ (frameAddr f = 0x02#7 ∨ frameAddr f = 0x03#7 → f.getLsbD 7 = false) := by
    rw [Bool.not_eq_true', Bool.and_eq_false_imp, Bool.or_eq_true, beq_iff_eq, beq_iff_eq]
  rw [ofMap, Bool.and_eq_true, Bool.and_eq_true, hok, hbit, List.contains_iff_mem, and_assoc]

/-- A frame of the map decodes. -/
theorem decodeFrame_of_ofMap {f : Frame} (h : ofMap f = true) : ∃ i, decodeFrame f = .ok i := by
  obtain ⟨⟨i, hi⟩, -⟩ := ofMap_iff.mp h
  exact ⟨i, decodeFrame_eq_ok_iff.mpr (decodeProduced_eq_ok_iff.mp hi).1⟩

theorem plan_of_isGetter (cfg : Config) : ∀ {i : Instr}, i.isGetter = true → plan cfg i = .ok []
  | .getiv _, _ | .getov _, _ | .getpm, _ | .getmix _, _ | .getdv _, _ => rfl

theorem plan_of_isFrame (cfg : Config) : ∀ {i : Instr}, i.isFrame = true → plan cfg i = .ok []
  | .frameLeftInputVolume .., _ | .frameRightInputVolume .., _ | .frameLeftOutput1Volume .., _
  | .frameRightOutput1Volume .., _ | .frameAdcDacControl .., _ | .frameAudioInterface .., _ | .frameLeftDacVolume .., _
  | .frameRightDacVolume .., _ | .frameReset, _ | .framePowerManagement1 .., _ | .framePowerManagement2 .., _
  | .frameLeftOutMix1 .., _ | .frameLeftOutMix2 .., _ | .frameRightOutMix1 .., _ | .frameRightOutMix2 .., _ => rfl

/-! The frames of the setters, by the closed forms of their plans. -/

theorem ofMap_inputVolume (ch : Channel) (a : BitVec 8) (h : a.toNat ≤ 63) :
    ofMap (frameWord (ch.pick 0x00#7 0x01#7) (0x100#9 ||| (if a = 0#8 then 0x080#9 else 0#9) ||| a.setWidth 9)) = true := by
  revert a; cases ch <;> decide +kernel

theorem ofMap_outputVolume (ch : Channel) (a : BitVec 8) (h : a.toNat ≤ 127) :
    ofMap (frameWord (ch.pick 0x02#7 0x03#7) (0x100#9 ||| a.setWidth 9)) = true := by
  revert a; cases ch <;> decide +kernel

theorem ofMap_audioInterface (a : BitVec 8) (h : a.toNat ≤ 3) :
    ofMap (frameWord 0x07#7 ((a.setWidth 9) <<< 2 ||| 0b10#9)) = true := by
  revert a; decide +kernel

theorem ofMap_dacVolume (ch : Channel) (a : BitVec 8) :
    ofMap (frameWord (ch.pick 0x0A#7 0x0B#7) (0x100#9 ||| a.setWidth 9)) = true := by
  revert a; cases ch <;> decide +kernel

theorem ofMap_mute (a : BitVec 8) (h : a.toNat ≤ 1) : ofMap (frameWord 0x05#7 ((a.setWidth 9) <<< 3)) = true := by
  revert a; decide +kernel

theorem ofMap_power (a : BitVec 8) :
    let bit := fun (i j : Nat) => (if a.getLsbD i then BitVec.twoPow 9 j else 0#9 : BitVec 9)
    ofMap (frameWord 0x19#7 (0x0C0#9 ||| bit 6 5 ||| bit 7 4 ||| bit 0 3 ||| bit 1 2)) = true
      ∧ ofMap (frameWord 0x1A#7 (bit 2 8 ||| bit 3 7 ||| bit 4 6 ||| bit 5 5)) = true := by
  revert a; decide +kernel

theorem ofMap_mixWord1 (ch : Channel) (l : BitVec 8) (h : l.toNat ≤ 7) :
    ofMap (frameWord (ch.pick 0x22#7 0x24#7)
      (ch.pick 0x100#9 0#9 ||| (if l = 0#8 then 0#9 else 0x080#9) ||| (7#9 - l.setWidth 9) <<< 4 ||| 0b011#9)) = true := by
  revert l; cases ch <;> decide +kernel

theorem ofMap_mixWord2 (ch : Channel) (r : BitVec 8) (h : r.toNat ≤ 7) :
    ofMap (frameWord (ch.pick 0x23#7 0x25#7)
      (ch.pick 0#9 0x100#9 ||| (if r = 0#8 then 0#9 else 0x080#9) ||| (7#9 - r.setWidth 9) <<< 4)) = true := by
  revert r; cases ch <;> decide +kernel

theorem ofMap_resetSubOp (wl : BitVec 2) (x : ResetSub) : (resetSubOp wl x).frames.all ofMap = true := by
  revert wl
  cases x with
  | inputVolume ch => cases ch <;> decide +kernel
  | outputVolume ch => cases ch <;> decide +kernel
  | power => decide +kernel
  | mix ch => cases ch <;> decide +kernel
  | audioInterface => decide +kernel
  | dacVolume ch => cases ch <;> decide +kernel
  | mute => decide +kernel

/-- A sub-operation as a setter's plan has one: one or two frames, all of the map. -/
structure SubOp.Proper (so : SubOp) : Prop where
  nonempty : so.frames ≠ []
  length_le : so.frames.length ≤ 2
  frames : ∀ f ∈ so.frames, ofMap f = true

theorem SubOp.Proper.one {f : Frame} {snap : Snap} (hf : ofMap f = true) : SubOp.Proper ⟨[f], snap⟩ :=
  ⟨by simp, by simp, by simpa using hf⟩

theorem SubOp.Proper.two {f g : Frame} {snap : Snap} (hf : ofMap f = true) (hg : ofMap g = true) :
    SubOp.Proper ⟨[f, g], snap⟩ :=
  ⟨by simp, by simp, by simpa using ⟨hf, hg⟩⟩

theorem resetSubOp_proper (wl : BitVec 2) (x : ResetSub) : (resetSubOp wl x).Proper := by
  refine ⟨?_, ?_, List.all_eq_true.mp (ofMap_resetSubOp wl x)⟩ <;> cases x <;> simp [resetSubOp]

/-- A setter in range has a plan of one proper sub-operation. -/
theorem plan_of_isSetter (cfg : Config) :
    ∀ {i : Instr}, i.isSetter = true → i.inRange = true → ∃ so, plan cfg i = .ok [so] ∧ so.Proper
  | .setiv ch a, _, hr =>
    have ha := of_decide_eq_true hr
    ⟨_, planSetiv_eq ch a ha, .one (ofMap_inputVolume ch a ha)⟩
  | .setov ch a, _, hr =>
    have ha := of_decide_eq_true hr
    ⟨_, planSetov_eq ch a ha, .one (ofMap_outputVolume ch a ha)⟩
  | .setpm a, _, _ => ⟨_, planSetpm_eq a, .two (ofMap_power a).1 (ofMap_power a).2⟩
  | .setmix ch l r, _, hr =>
    have ⟨hl, hr⟩ := of_decide_eq_true hr
    ⟨_, planSetmix_eq ch l r hl hr, .two (ofMap_mixWord1 ch l hl) (ofMap_mixWord2 ch r hr)⟩
  | .setdai a, _, hr =>
    have ha := of_decide_eq_true hr
    ⟨_, planSetdai_eq a ha, .one (ofMap_audioInterface a ha)⟩
  | .setdv ch a, _, _ => ⟨_, planSetdv_eq ch a, .one (ofMap_dacVolume ch a)⟩
  | .setdm a, _, hr =>
    have ha := of_decide_eq_true hr
    ⟨_, planSetdm_eq a ha, .one (ofMap_mute a ha)⟩

/-- What every plan of an operation in range is like: no sub-operation is empty, there are at most twelve of them with at
most fifteen frames (42_reset_and_getters.md R91), and every frame is one of the map. -/
structure PlanShape (p : List SubOp) : Prop where
  nonempty : ∀ so ∈ p, so.frames ≠ []
  length_le : p.length ≤ 12
  frames_le : (planFrames p).length ≤ 15
  ofMap : ∀ f ∈ planFrames p, ofMap f = true

theorem planShape_nil : PlanShape [] := ⟨by simp, by simp, by simp [planFrames], by simp [planFrames]⟩

theorem SubOp.Proper.planShape {so : SubOp} (h : so.Proper) : PlanShape [so] := by
  have hlen := h.length_le
  exact ⟨by simpa using h.nonempty, by simp, by simp [planFrames]; omega, by simpa [planFrames] using h.frames⟩

/-- Settles O25: the closed form of RESET's plan (`planReset_eq`) at the listed order, for each code. -/
theorem resetPlanInTheListedOrder : Obligations.ResetPlanInTheListedOrder := by
  intro wl
  rw [planReset_eq]
  revert wl
  decide

/-- RESET has as many frames in every admitted order as in the listed one. -/
theorem planFrames_reset_length {cfg : Config} (hwf : cfg.wf) :
    (planFrames (⟨[0x1E00#16], .nothing⟩ :: cfg.resetOrder.map (resetSubOp cfg.wl16Code))).length = 15 := by
  rw [planFrames_length_perm ((hwf.map _).cons _)]
  rfl

/-- Settles O26: the plan of RESET is the closed form of its order (`planReset_eq`), and orders are permutations. -/
theorem resetPlanInAnyOrder : Obligations.ResetPlanInAnyOrder := by
  intro cfg hwf
  refine ⟨_, _, planReset_eq cfg, planReset_eq _, (hwf.map _).cons _, ?_, planFrames_reset_length hwf, rfl⟩
  rw [List.length_cons, List.length_map, hwf.length_eq]
  rfl

theorem planReset_shape {cfg : Config} (hwf : cfg.wf) :
    PlanShape (⟨[0x1E00#16], .nothing⟩ :: cfg.resetOrder.map (resetSubOp cfg.wl16Code)) := by
  refine ⟨?_, ?_, (planFrames_reset_length hwf).le, ?_⟩
  · simpa using fun x _ => (resetSubOp_proper cfg.wl16Code x).nonempty
  · rw [List.length_cons, List.length_map, hwf.length_eq]
    decide
  · have hfirst : ofMap 0x1E00#16 = true := by decide
    simpa [planFrames, hfirst] using fun f x _ => (resetSubOp_proper cfg.wl16Code x).frames f

/-- Settles O53: setters in range have their closed forms, RESET has one whatever its order, the others send nothing. -/
theorem inRangeOperationsHaveAPlan : Obligations.InRangeOperationsHaveAPlan := by
  intro cfg i hr
  rcases instr_kinds i with rfl | hk | hk | hk
  · exact ⟨_, planReset_eq cfg⟩
  · obtain ⟨so, hp, -⟩ := plan_of_isSetter cfg hk hr
    exact ⟨_, hp⟩
  · exact ⟨_, plan_of_isGetter cfg hk⟩
  · exact ⟨_, plan_of_isFrame cfg hk⟩

/-- The plan of an operation in range has that shape. -/
theorem plan_shape {cfg : Config} {i : Instr} {p : List SubOp} (hwf : i = .reset → cfg.wf) (hr : i.inRange = true)
    (hp : plan cfg i = .ok p) : PlanShape p := by
  rcases instr_kinds i with rfl | hk | hk | hk
  · obtain rfl := Except.ok.inj ((planReset_eq cfg).symm.trans hp)
    exact planReset_shape (hwf rfl)
  · obtain ⟨so, hso, hproper⟩ := plan_of_isSetter cfg hk hr
    obtain rfl := Except.ok.inj (hso.symm.trans hp)
    exact hproper.planShape
  · obtain rfl := Except.ok.inj ((plan_of_isGetter cfg hk).symm.trans hp)
    exact planShape_nil
  · obtain rfl := Except.ok.inj ((plan_of_isFrame cfg hk).symm.trans hp)
    exact planShape_nil

/-- RESET and a setter in range have something to send. -/
theorem plan_eq_cons {cfg : Config} {i : Instr} (hi : i = .reset ∨ i.isSetter = true) (hr : i.inRange = true) :
    ∃ so rest, plan cfg i = .ok (so :: rest) := by
  rcases hi with rfl | hi
  · exact ⟨_, _, planReset_eq cfg⟩
  · obtain ⟨so, hp, -⟩ := plan_of_isSetter cfg hi hr
    exact ⟨so, [], hp⟩

end Sys2Proof.Machine
end

section
/-! The invariant (10_state.md sections 2, 4 and 6): what it says of the running command's place in its plan, and that every
move keeps it. -/

namespace Sys2Proof.Machine

/-! ### Words and instructions -/

theorem encode_of_not_isFrame {i : Instr} (h : i.isFrame = false) : encode i = .command i.word := by
  unfold Instr.isFrame at h
  unfold Instr.word
  cases hi : encode i with
  | command w => rfl
  | frame f => simp [hi] at h

theorem decodeCommand_word {i : Instr} (h : i.isFrame = false) : decodeCommand i.word = .ok i :=
  decodeCommand_eq_ok_iff.mpr (encode_of_not_isFrame h)

theorem word_of_decodeCommand {w : Command} {i : Instr} (h : decodeCommand w = .ok i) : i.word = w := by
  rw [Instr.word, decodeCommand_eq_ok_iff.mp h]

theorem frame_of_decodeFrame {f : Frame} {i : Instr} (h : decodeFrame f = .ok i) : i.frame = f := by
  rw [Instr.frame, decodeFrame_eq_ok_iff.mp h]

theorem reset_word : Instr.reset.word = 0x10000000#32 := rfl

/-- RESET's word is that of RESET alone. -/
theorem eq_reset_word_iff {w : Command} {i : Instr} (h : decodeCommand w = .ok i) : w = Instr.reset.word ↔ i = .reset := by
  constructor
  · rintro rfl
    exact Except.ok.inj (h.symm.trans (decodeCommand_word rfl))
  · rintro rfl
    exact (word_of_decodeCommand h).symm

theorem isFrame_of_isSetter : ∀ {i : Instr}, i.isSetter = true → i.isFrame = false
  | .setiv .., _ | .setov .., _ | .setpm .., _ | .setmix .., _ | .setdai .., _ | .setdv .., _ | .setdm .., _ => rfl

/-- RESET and the setters are commands. -/
theorem isFrame_of_operation {i : Instr} (h : i = .reset ∨ i.isSetter = true) : i.isFrame = false := by
  rcases h with rfl | h
  · rfl
  · exact isFrame_of_isSetter h

theorem not_isSetter_reset {i : Instr} (h : i.isSetter = true) : i ≠ .reset := by
  rintro rfl; simp [Instr.isSetter] at h

/-! ### Accepting a command -/

theorem State.mode_of_cmdReady {s : State} (hs : s.cmdReady = true) : s.mode ≠ .fatal := (s.cmdReady_iff.mp hs).1

theorem State.busy_of_cmdReady {s : State} (hs : s.cmdReady = true) : s.seq.busy = false := (s.cmdReady_iff.mp hs).2.1

theorem State.rsp_of_cmdReady {s : State} (hs : s.cmdReady = true) : s.rsp = none := (s.cmdReady_iff.mp hs).2.2

/-- A ready block is in `UNINIT` or in `READY`. -/
theorem State.ready_of_cmdReady {s : State} (hs : s.cmdReady = true) (hm : s.mode ≠ .uninit) : s.mode = .ready := by
  cases hmode : s.mode with
  | uninit => exact absurd hmode hm
  | ready => rfl
  | fatal => exact absurd hmode (State.mode_of_cmdReady hs)

/-- The block at the beginning of the plan of command `i`: RESET runs in `UNINIT`, a setter in `READY`. -/
def State.begin (s : State) (i : Instr) (so : SubOp) : State :=
  State.startPlan { s.accept i.word with mode := if i = .reset then .uninit else .ready } so

/-- What accepting a command comes to, now that an operation in range always has a plan with something to send: a response
at once, the fatal mode, or the beginning of the plan. -/
theorem accepted_cases {s t : State} {i : Instr} (hs : s.cmdReady = true) (h : Accepted s i t) :
    (∃ status d, t = (s.accept i.word).respond status d)
    ∨ (i.isSetter = true ∧ s.mode = .ready ∧ i.inRange = false ∧ t = (s.accept i.word).raiseValueOutOfRange i.word)
    ∨ ∃ so rest, (i = .reset ∨ i.isSetter = true ∧ s.mode = .ready) ∧ i.inRange = true
        ∧ plan s.cfg i = .ok (so :: rest) ∧ t = s.begin i so := by
  cases h with
  | notInitialized _ _ => exact .inl ⟨_, _, rfl⟩
  | outOfRange hi hm hr => exact .inr (.inl ⟨hi, State.ready_of_cmdReady hs hm, hr, rfl⟩)
  | setterFails hi hm hr hp =>
    obtain ⟨so, rest, hp'⟩ := plan_eq_cons (cfg := s.cfg) (.inr hi) hr
    simp [hp] at hp'
  | setterEmpty hi hm hr hp => exact .inl ⟨_, _, rfl⟩
  | setterBegins so rest hi hm hr hp =>
    refine .inr (.inr ⟨so, rest, .inr ⟨hi, State.ready_of_cmdReady hs hm⟩, hr, hp, ?_⟩)
    rw [State.begin, if_neg (not_isSetter_reset hi), ← State.ready_of_cmdReady hs hm]
    rfl
  | resetFails hi hp =>
    obtain ⟨so, rest, hp'⟩ := plan_eq_cons (cfg := s.cfg) (.inl hi) (by rw [hi]; rfl)
    simp [hp] at hp'
  | resetEmpty hi hp =>
    obtain ⟨so, rest, hp'⟩ := plan_eq_cons (cfg := s.cfg) (.inl hi) (by rw [hi]; rfl)
    simp [hp] at hp'
  | resetBegins so rest hi hp =>
    refine .inr (.inr ⟨so, rest, .inl hi, by rw [hi]; rfl, hp, ?_⟩)
    rw [State.begin, if_pos hi]
  | got value hi => exact .inl ⟨_, _, rfl⟩

/-! ### The place in the plan -/

/-- Command `i` is at work in its plan `p`, at the sub-operation `so`: `State.InPlan` with its parts named, and the shape
of the plan. -/
structure State.At (s : State) (i : Instr) (p : List SubOp) (so : SubOp) : Prop where
  cmd : decodeCommand s.seq.cmd = .ok i
  inRange : i.inRange = true
  plan : plan s.cfg i = .ok p
  shape : PlanShape p
  here : p[s.seq.j.toNat]? = some so
  snap : s.seq.snap = so.commit
  le : framesBefore p s.seq.j.toNat ≤ s.seq.k.toNat
  lt : s.seq.k.toNat < framesBefore p (s.seq.j.toNat + 1)
  mode : s.mode = if i = .reset then .uninit else .ready

theorem State.At.inPlan {s : State} {i : Instr} {p : List SubOp} {so : SubOp} (h : s.At i p so) : s.InPlan :=
  ⟨i, p, so, h.cmd, h.inRange, h.plan, h.here, h.snap, h.le, h.lt, h.mode⟩

theorem State.Inv.at {s : State} (hs : s.Inv) (hr : s.running = true) : ∃ i p so, s.At i p so := by
  obtain ⟨i, p, so, hcmd, hir, hp, hso, hsnap, hle, hlt, hm⟩ := hs.inPlan hr
  exact ⟨i, p, so, hcmd, hir, hp, plan_shape (fun _ => hs.cfgWf) hir hp, hso, hsnap, hle, hlt, hm⟩

section
variable {s : State} {i : Instr} {p : List SubOp} {so : SubOp}

theorem State.At.plan?_eq (h : s.At i p so) : s.plan? = some p := Machine.plan?_eq h.cmd h.plan

/-- The plan that an answer looks up is the one the command is at work in. -/
theorem State.At.eq_of_plan? (h : s.At i p so) {q : List SubOp} (hq : s.plan? = some q) : q = p :=
  Option.some.inj (hq.symm.trans h.plan?_eq)

theorem State.At.j_lt (h : s.At i p so) : s.seq.j.toNat < 12 := by
  obtain ⟨hj, -⟩ := List.getElem?_eq_some_iff.mp h.here
  exact hj.trans_le h.shape.length_le

theorem State.At.k_lt (h : s.At i p so) : s.seq.k.toNat < 15 :=
  h.lt.trans_le ((framesBefore_le p _).trans h.shape.frames_le)

theorem toNat_add_one {x : BitVec 4} (h : x.toNat < 15) : (x + 1#4).toNat = x.toNat + 1 := by
  rw [BitVec.toNat_add_of_lt] <;> simp; omega

theorem State.At.j_succ (h : s.At i p so) : (s.seq.j + 1#4).toNat = s.seq.j.toNat + 1 :=
  toNat_add_one (h.j_lt.trans (by decide))

theorem State.At.k_succ (h : s.At i p so) : (s.seq.k + 1#4).toNat = s.seq.k.toNat + 1 := toNat_add_one h.k_lt

/-- A command at work has a frame to send, one of the map. -/
theorem State.At.plannedFrame (h : s.At i p so) : ∃ f, s.plannedFrame = some f ∧ ofMap f = true := by
  have hk : s.seq.k.toNat < (planFrames p).length := h.lt.trans_le (framesBefore_le p _)
  refine ⟨(planFrames p)[s.seq.k.toNat], ?_, h.shape.ofMap _ (List.getElem_mem hk)⟩
  rw [State.plannedFrame, h.plan?_eq]
  exact List.getElem?_eq_getElem hk

end

/-! ### What the invariant reads, and where it is easy -/

theorem State.InPlan.advance {s : State} (h : s.InPlan) : s.advance.InPlan := by
  simpa [State.InPlan] using h

/-- The environment's move keeps the invariant, which reads no pin. -/
theorem State.Inv.advance {s : State} (h : s.Inv) : s.advance.Inv where
  cfgWf := by simpa using h.cfgWf
  chipWf := by simpa using h.chipWf
  faultIff := by simpa using h.faultIff
  fatalIdle := by simpa using h.fatalIdle
  rspBusy := by simpa using h.rspBusy
  txPlanned := by simpa using h.txPlanned
  inPlan hr := (h.inPlan (by simpa using hr)).advance

/-- A frame in flight belongs to a running command, so where none runs the port is free. -/
theorem State.Inv.tx_eq_none {s : State} (h : s.Inv) (hr : s.running = false) : s.tx = none := by
  by_contra htx
  have hrun := (h.txPlanned htx).1
  simp [hr] at hrun

theorem State.not_running_of_cmdReady {s : State} (h : s.cmdReady = true) : s.running = false := by
  simp [State.running, State.busy_of_cmdReady h]

/-- Where no command runs only the port, the modes and the parameters are left to check. -/
theorem State.Inv.of_stopped {t : State} (hcfg : t.cfg.wf) (hchip : Memory.wf t.chip = true)
    (hfault : t.faultValid = true ↔ t.mode = .fatal) (hfatal : t.mode = .fatal → t.seq.busy = false)
    (hrsp : t.rsp ≠ none → t.seq.busy = true) (htx : t.tx = none) (hr : t.running = false) : t.Inv where
  cfgWf := hcfg
  chipWf := hchip
  faultIff := hfault
  fatalIdle := hfatal
  rspBusy := hrsp
  txPlanned h := absurd htx h
  inPlan h := by simp [hr] at h

/-- A running command with a free port has its place in the plan to keep. -/
theorem State.Inv.of_at {t : State} {i : Instr} {p : List SubOp} {so : SubOp} (hcfg : t.cfg.wf)
    (hchip : Memory.wf t.chip = true) (hfault : t.faultValid = true ↔ t.mode = .fatal) (hr : t.running = true)
    (htx : t.tx = none) (h : t.At i p so) : t.Inv where
  cfgWf := hcfg
  chipWf := hchip
  faultIff := hfault
  fatalIdle hm := by
    rw [h.mode] at hm
    split_ifs at hm
  rspBusy _ := (t.running_iff.mp hr).1
  txPlanned h := absurd htx h
  inPlan _ := h.inPlan

/-! ### The moves -/

theorem State.Inv.faultValid_eq_false {s : State} (h : s.Inv) (hm : s.mode ≠ .fatal) : s.faultValid = false := by
  rw [Bool.eq_false_iff, ne_eq, h.faultIff]
  exact hm

theorem State.At.mode_ne_fatal {s : State} {i : Instr} {p : List SubOp} {so : SubOp} (h : s.At i p so) :
    s.mode ≠ .fatal := by
  rw [h.mode]
  split_ifs <;> decide

theorem finishMode_ne_fatal (cmd : Command) {mode : Mode} (h : mode ≠ .fatal) : finishMode cmd mode ≠ .fatal := by
  unfold finishMode
  split_ifs
  · decide
  · exact h

theorem State.Inv.hardwareReset {s : State} (h : s.Inv) : s.hardwareReset.Inv := by
  refine .of_stopped h.cfgWf ?_ (by simp) (by simp) (by simp) rfl rfl
  cases htx : s.tx with
  | none => simpa [htx] using h.chipWf
  | some f => simpa [htx] using Memory.answeredUnknown_wf f h.chipWf

theorem State.Inv.deliver {s : State} (h : s.Inv) {r : Response} (hr : s.rsp = some r) : s.deliver.Inv :=
  .of_stopped h.cfgWf h.chipWf h.faultIff (fun _ => rfl) (by simp) (h.tx_eq_none (by simp [State.running, hr])) rfl

/-- A response formed at the accepting edge. -/
theorem State.Inv.respond {s : State} (h : s.Inv) (hs : s.cmdReady = true) (w : Command) (status : Status)
    (d : BitVec 16) : ((s.accept w).respond status d).Inv :=
  .of_stopped h.cfgWf h.chipWf h.faultIff (fun hm => absurd hm (State.mode_of_cmdReady (s := s) hs)) (fun _ => rfl)
    (h.tx_eq_none (State.not_running_of_cmdReady hs)) rfl

theorem State.Inv.raiseValueOutOfRange {s : State} (h : s.Inv) (hs : s.cmdReady = true) (w : Command) :
    ((s.accept w).raiseValueOutOfRange w).Inv :=
  .of_stopped h.cfgWf h.chipWf (by simp) (fun _ => rfl) (by simp)
    (h.tx_eq_none (State.not_running_of_cmdReady hs)) rfl

/-- A plan begins at its first sub-operation and first frame. -/
theorem State.begin_at {s : State} {i : Instr} {so : SubOp} {rest : List SubOp} (hcfg : i = .reset → s.cfg.wf)
    (hi : i = .reset ∨ i.isSetter = true) (hr : i.inRange = true) (hp : Machine.plan s.cfg i = .ok (so :: rest)) :
    (s.begin i so).At i (so :: rest) so := by
  have hshape := plan_shape hcfg hr hp
  refine ⟨decodeCommand_word (isFrame_of_operation hi), hr, hp, hshape, rfl, rfl, Nat.zero_le _, ?_, rfl⟩
  simpa [State.begin, framesBefore, planFrames, List.length_pos_iff] using hshape.nonempty so (by simp)

theorem State.Inv.begin {s : State} (h : s.Inv) (hs : s.cmdReady = true) {i : Instr} {so : SubOp} {rest : List SubOp}
    (hi : i = .reset ∨ i.isSetter = true) (hr : i.inRange = true) (hp : plan s.cfg i = .ok (so :: rest)) :
    (s.begin i so).Inv := by
  have hfault := h.faultValid_eq_false (State.mode_of_cmdReady hs)
  refine .of_at h.cfgWf h.chipWf ?_ ?_ (h.tx_eq_none (State.not_running_of_cmdReady hs)) (State.begin_at (fun _ => h.cfgWf) hi hr hp)
  · by_cases hi : i = .reset <;> simp [State.begin, hfault, hi]
  · simp [State.running, State.begin, State.rsp_of_cmdReady hs]

theorem State.Inv.command {s t : State} {i : Instr} (h : s.Inv) (hs : s.cmdReady = true) (ha : Accepted s i t) :
    t.Inv := by
  rcases accepted_cases hs ha with ⟨status, d, rfl⟩ | ⟨-, -, -, rfl⟩ | ⟨so, rest, hi, hr, hp, rfl⟩
  · exact h.respond hs _ status d
  · exact h.raiseValueOutOfRange hs _
  · exact h.begin hs (hi.imp_right And.left) hr hp

/-- The planned frame goes onto the port. -/
theorem State.Inv.emit {s : State} (h : s.Inv) (hr : s.running = true) {f : Frame} (hf : s.plannedFrame = some f) :
    (s.emit f).Inv where
  cfgWf := h.cfgWf
  chipWf := h.chipWf
  faultIff := h.faultIff
  fatalIdle := h.fatalIdle
  rspBusy := h.rspBusy
  txPlanned _ := ⟨hr, hf.symm⟩
  inPlan _ := h.inPlan hr

theorem State.Inv.frameFault {s : State} (h : s.Inv) (hr : s.running = true) (f : Frame) : (s.frameFault f).Inv :=
  .of_stopped h.cfgWf (Memory.answeredUnknown_wf f h.chipWf) h.faultIff h.fatalIdle
    (fun _ => (s.running_iff.mp hr).1) rfl (by simp [State.running])

/-- The place after an answer inside a sub-operation. -/
theorem State.At.frameOk {s : State} {i : Instr} {p : List SubOp} {so : SubOp} (h : s.At i p so) (f : Frame)
    (hk : s.seq.k.toNat + 1 ≠ framesBefore p (s.seq.j.toNat + 1)) : (s.frameOk f).At i p so where
  cmd := h.cmd
  inRange := h.inRange
  plan := h.plan
  shape := h.shape
  here := h.here
  snap := h.snap
  le := by
    have := h.le
    simp only [State.frameOk_seq, h.k_succ]
    omega
  lt := by
    have := h.lt
    simp only [State.frameOk_seq, h.k_succ]
    omega
  mode := h.mode

/-- The place after the last answer of a sub-operation that has a successor. -/
theorem State.At.nextSubOp {s : State} {i : Instr} {p : List SubOp} {so so' : SubOp} (h : s.At i p so) (f : Frame)
    (hk : s.seq.k.toNat + 1 = framesBefore p (s.seq.j.toNat + 1)) (hso : p[s.seq.j.toNat + 1]? = some so') :
    ((s.frameOk f).commitSubOp.nextSubOp so').At i p so' where
  cmd := h.cmd
  inRange := h.inRange
  plan := h.plan
  shape := h.shape
  here := by simpa [h.j_succ] using hso
  snap := rfl
  le := by simp [h.j_succ, h.k_succ, hk]
  lt := by
    have hpos := List.length_pos_iff.mpr (h.shape.nonempty so' (List.mem_of_getElem? hso))
    simp [h.j_succ, h.k_succ, hk, framesBefore_succ hso]
    omega
  mode := h.mode

theorem State.Inv.ok {s t : State} (h : s.Inv) (hr : s.running = true) {f : Frame} (ha : AnsweredOk s f t) : t.Inv := by
  obtain ⟨i, p, so, hat⟩ := h.at hr
  have hchip := Memory.answeredOk_wf f h.chipWf
  cases ha with
  | inside q hq hk =>
    obtain rfl := hat.eq_of_plan? hq
    exact .of_at h.cfgWf hchip h.faultIff hr rfl (hat.frameOk f hk)
  | nextSubOp q so' hq hk hso =>
    obtain rfl := hat.eq_of_plan? hq
    exact .of_at h.cfgWf hchip h.faultIff hr rfl (hat.nextSubOp f hk hso)
  | finish q hq hk hso =>
    have hmode := finishMode_ne_fatal s.seq.cmd hat.mode_ne_fatal
    have hfault := h.faultValid_eq_false hat.mode_ne_fatal
    exact .of_stopped h.cfgWf hchip (by simp [hfault, hmode]) (fun hm => absurd hm hmode)
      (fun _ => (s.running_iff.mp hr).1) rfl (by simp [State.running])

theorem Moves.inv {s t : State} (h : s.Inv) (hm : Moves s t) : t.Inv := by
  cases hm with
  | hardwareReset _ => exact h.hardwareReset
  | deliver _ r hr _ => exact h.deliver hr
  | hold _ _ => exact h
  | illegal _ hs _ _ _ => exact h.respond hs _ _ _
  | command _ hs _ i _ ha => exact h.command hs ha
  | emit _ hr _ f i hf hd => exact h.emit hr (by rw [frame_of_decodeFrame hd, hf])
  | fault _ hr i _ _ _ => exact h.frameFault hr _
  | ok _ hr i _ _ _ ha => exact h.ok hr ha

/-- Settles O57: whatever move the edge makes keeps the invariant (`Moves.inv`), and so does the environment's. -/
theorem everyStepKeepsTheInvariant : Obligations.EveryStepKeepsTheInvariant := by
  intro s t hs hstep
  obtain ⟨u, hmove, rfl⟩ := step_cases hstep
  exact (hmove.inv hs).advance

end Sys2Proof.Machine
end

section
/-! What an edge does, forwards (30_encoding.md section 4, 60_exceptions.md section 1): acceptance and its errors, the getters,
the frames and their answers, the step of each kind of edge, the output ports. -/

namespace Sys2Proof.Machine

/-! ### Acceptance -/

/-- A block that is not ready takes no command. -/
theorem exec_of_not_cmdReady {s : State} {i : Instr} (hi : i.isFrame = false) (hs : s.cmdReady = false) :
    exec i s = .next s := by
  rcases instr_kinds i with rfl | hk | hk | hk
  · rw [exec_reset, runReset, hs]; rfl
  · rw [exec_of_isSetter hk, runSetter, hs]; rfl
  · obtain ⟨v, hv⟩ := exec_of_isGetter hk s
    rw [hv, runGetter, hs]; rfl
  · simp [hi] at hk

/-- Settles O13: `cmdReady_iff`, and no kind of command is taken without it. -/
theorem notReadyBlockAcceptsNoCommand : Obligations.NotReadyBlockAcceptsNoCommand :=
  fun s => ⟨s.cmdReady_iff, fun _ hi hs => exec_of_not_cmdReady hi hs⟩

/-- Settles O14: the mode is tested before the operands. -/
theorem settersNeedAnInitializedBlock : Obligations.SettersNeedAnInitializedBlock := by
  intro s i hi hs hm
  rw [exec_of_isSetter hi, runSetter, if_pos hs, if_pos hm]
  rfl

/-- A setter out of range in `READY` raises ValueOutOfRange with its word. -/
theorem exec_of_not_inRange {s : State} {i : Instr} (hs : s.cmdReady = true) (hm : s.mode = .ready)
    (hi : i.isSetter = true) (hr : i.inRange = false) :
    exec i s = .next { s with mode := .fatal, faultValid := true, faultCmd := i.word,
                              seq := { s.seq with busy := false, cmd := i.word } } := by
  have hrsp := State.rsp_of_cmdReady hs
  rw [exec_of_isSetter hi, runSetter, if_pos hs, if_neg (by simp [hm]), if_neg (by simp [hr])]
  simp [State.raiseValueOutOfRange, State.accept, hrsp]

/-- Settles O15: each operand beyond its bound is out of range (`exec_of_not_inRange`). -/
theorem operandOutOfRangeIsFatal : Obligations.OperandOutOfRangeIsFatal := by
  intro s hs hm
  refine ⟨fun ch a ha => ?_, fun ch a ha => ?_, fun ch a b hab => ?_, fun a ha => ?_, fun a ha => ?_⟩ <;>
    refine exec_of_not_inRange hs hm rfl ?_ <;> simp only [Instr.inRange, decide_eq_false_iff_not] <;> omega

/-! ### The edges -/

theorem edge_of_command {s : State} (hrst : s.pins.rstN = true) (hrsp : s.rsp = none) (hb : s.seq.busy = false)
    (hv : s.pins.cmdValid = true) : s.edge = .command s.pins.cmdWord := by
  simp [State.edge, hrst, hrsp, hb, hv]

theorem edge_of_noCommand {s : State} (hrst : s.pins.rstN = true) (hrsp : s.rsp = none) (hb : s.seq.busy = false)
    (hv : s.pins.cmdValid = false) : s.edge = .hold := by
  simp [State.edge, hrst, hrsp, hb, hv]

/-- The frame at hand: the one on the port, or the planned one when the port is free. -/
theorem edge_of_frame {s : State} {f : Frame} (hrst : s.pins.rstN = true) (hr : s.running = true)
    (hf : s.tx = some f ∨ s.tx = none ∧ s.plannedFrame = some f) : s.edge = .frame f := by
  obtain ⟨hb, hrsp⟩ := s.running_iff.mp hr
  rcases hf with hf | ⟨htx, hf⟩
  · simp [State.edge, hrst, hrsp, hb, hf]
  · simp [State.edge, hrst, hrsp, hb, htx, hf]

theorem step_of_command {s : State} {w : Command} {i : Instr} (he : s.edge = .command w)
    (hd : decodeCommand w = .ok i) : step s = thenAdvance (exec i s) := by
  simp [step, he, hd]

theorem step_of_frame {s : State} {f : Frame} {i : Instr} (he : s.edge = .frame f) (hd : decodeFrame f = .ok i) :
    step s = thenAdvance (frameWrite f s) := by
  simp [step, he, hd, exec_of_isFrame (decodeFrame_isFrame hd), frame_of_decodeFrame hd]

/-- Settles O16: the presented word is no command, and the ready block answers so. -/
theorem illegalCommandIsAnswered : Obligations.IllegalCommandIsAnswered := by
  intro s hs hrst hv hd
  simp only [step, edge_of_command hrst (State.rsp_of_cmdReady hs) (State.busy_of_cmdReady hs) hv, hd, runIllegal, if_pos hs, thenAdvance_next]
  rfl

/-- Settles O38: the edge is that of the word, and the step is exec of what it decodes to. -/
theorem stepRunsTheDecodedInstruction : Obligations.StepRunsTheDecodedInstruction := by
  intro s i hrst hrsp hword
  have hstep : step s = thenAdvance (exec i s) := by
    rcases hword with ⟨hb, hv, hd⟩ | ⟨hb, f, hf, hd⟩
    · exact step_of_command (edge_of_command hrst hrsp hb hv) hd
    · rw [step_of_frame (edge_of_frame hrst (s.running_iff.mpr ⟨hb, hrsp⟩) hf) hd,
        exec_of_isFrame (decodeFrame_isFrame hd), frame_of_decodeFrame hd]
  rw [hstep]
  exact ⟨fun t ht => by rw [ht, thenAdvance_next], fun r hr => by rw [hr, thenAdvance_fault],
    fun r hr => by rw [hr, thenAdvance_refused]⟩

/-- Settles O39: the edge takes reset before anything else, and the outputs are gated by `rst_n`. -/
theorem hardwareResetTakesTheResetState : Obligations.HardwareResetTakesTheResetState := by
  intro s hrst
  refine ⟨⟨Config.freeCmd s.tick, Config.freeSnap s.tick, ?_⟩, ?_, ?_, ?_⟩
  · simp only [step, State.edge, hrst]
    rfl
  all_goals simp [State.outputs, hrst]

/-- Settles O40: the edge delivers or holds the response by `rsp_ready` alone. -/
theorem responseIsHeldUntilTaken : Obligations.ResponseIsHeldUntilTaken := by
  intro s r hrst hrsp
  refine ⟨?_, fun hready => ?_, fun hready => ?_⟩
  · simp only [State.outputs, hrst, hrsp, if_true, Option.map_some]
    cases r.status <;> rfl
  · simp [step, State.edge, hrst, hrsp, hready]
  · simp only [step, State.edge, hrst, hrsp, hready]
    rfl

/-- Settles O41: the outputs are defined by the state; with reset released nothing is gated. -/
theorem statusOutputsShowTheState : Obligations.StatusOutputsShowTheState := by
  intro s
  refine ⟨?_, rfl, rfl, rfl, fun hrst => ⟨?_, ?_, ?_⟩⟩
  · simp only [State.outputs]
    cases s.mode <;> rfl
  · simpa [State.outputs, hrst] using s.cmdReady_iff
  · simp [State.outputs, hrst]
  · simp [State.outputs, hrst]

/-! ### The getters -/

/-- A ready block answers a getter with the value read. -/
theorem runGetter_of_cmdReady {s : State} (hs : s.cmdReady = true) (w : Command) (d : BitVec 16) :
    runGetter w d s = .next { s with seq := { s.seq with busy := true, cmd := w }, rsp := some ⟨.ok, d⟩ } := by
  rw [runGetter, if_pos hs]
  rfl

/-- Settles O28: the slot of 6 bits, zero-extended. -/
theorem getivAnswersTheInputVolume : Obligations.GetivAnswersTheInputVolume := by
  intro s ch hs
  refine ⟨by cases ch <;> decide, _, runGetter_of_cmdReady hs _ _, ?_⟩
  have hd := BitVec.toNat_setWidth_of_le (b := s.m.iv.get ch) (show 6 ≤ 16 by decide)
  exact ⟨hd, by rw [hd]; omega⟩

/-- Settles O29: the slot of 7 bits, zero-extended. -/
theorem getovAnswersTheOutputVolume : Obligations.GetovAnswersTheOutputVolume := by
  intro s ch hs
  refine ⟨by cases ch <;> decide, _, runGetter_of_cmdReady hs _ _, ?_⟩
  have hd := BitVec.toNat_setWidth_of_le (b := s.m.ov.get ch) (show 7 ≤ 16 by decide)
  exact ⟨hd, by rw [hd]; omega⟩

/-- The flags in the byte `pwr8` (30_encoding.md R49). -/
theorem toByte_getLsbD (p : PowerConfig) :
    p.toByte.getLsbD 0 = p.adcLeft ∧ p.toByte.getLsbD 1 = p.adcRight ∧ p.toByte.getLsbD 2 = p.dacLeft
      ∧ p.toByte.getLsbD 3 = p.dacRight ∧ p.toByte.getLsbD 4 = p.leftOut1 ∧ p.toByte.getLsbD 5 = p.rightOut1
      ∧ p.toByte.getLsbD 6 = p.pgaLeft ∧ p.toByte.getLsbD 7 = p.pgaRight := by
  simp only [PowerConfig.toByte, BitVec.getLsbD_append]
  simp

/-- Settles O30: the eight flags in their bit order (`toByte_getLsbD`), zero-extended. -/
theorem getpmAnswersThePowerFlags : Obligations.GetpmAnswersThePowerFlags := by
  intro s hs
  refine ⟨by decide, _, runGetter_of_cmdReady hs _ _, ?_⟩
  have hbit : ∀ i, i < 16 → (s.m.pwr.toByte.setWidth 16).getLsbD i = s.m.pwr.toByte.getLsbD i := by
    intro i hi
    rw [BitVec.getLsbD_setWidth, decide_eq_true hi, Bool.true_and]
  have hd := BitVec.toNat_setWidth_of_le (b := s.m.pwr.toByte) (show 8 ≤ 16 by decide)
  simp (disch := decide) only [hbit]
  obtain ⟨h0, h1, h2, h3, h4, h5, h6, h7⟩ := toByte_getLsbD s.m.pwr
  exact ⟨h0, h1, h2, h3, h4, h5, h6, h7, by rw [hd]; omega⟩

/-- Settles O31: two levels of 3 bits, each in its byte. -/
theorem getmixAnswersTheTwoLevels : Obligations.GetmixAnswersTheTwoLevels := by
  intro s ch hs
  refine ⟨by cases ch <;> decide, _, runGetter_of_cmdReady hs _ _, ?_⟩
  have hlow := ((s.m.mix.get ch).left.setWidth 8).isLt
  rw [BitVec.toNat_append, ← Nat.shiftLeft_add_eq_or_of_lt hlow, Nat.shiftLeft_eq,
    BitVec.toNat_setWidth_of_le (by decide), BitVec.toNat_setWidth_of_le (by decide)]

/-- Settles O32: the slot of 8 bits, zero-extended. -/
theorem getdvAnswersTheDacVolume : Obligations.GetdvAnswersTheDacVolume := by
  intro s ch hs
  refine ⟨by cases ch <;> decide, _, runGetter_of_cmdReady hs _ _, ?_⟩
  have hd := BitVec.toNat_setWidth_of_le (b := s.m.dv.get ch) (show 8 ≤ 16 by decide)
  exact ⟨hd, by rw [hd]; omega⟩

/-! ### The frames -/

theorem frameWrite_of_free {s : State} (hr : s.running = true) (htx : s.tx = none) (f : Frame) :
    frameWrite f s = .next (s.emit f) := by
  simp [frameWrite, hr, htx]

theorem frameWrite_of_waiting {s : State} {f : Frame} (htx : s.tx = some f) (hy : s.pins.txDone = false) :
    frameWrite f s = .next s := by
  simp [frameWrite, htx, hy]

theorem frameWrite_of_fault {s : State} {f : Frame} (hr : s.running = true) (htx : s.tx = some f)
    (hy : s.pins.txDone = true) (hf : s.pins.txFault = true) : frameWrite f s = .next (s.frameFault f) := by
  simp [frameWrite, hr, htx, hy, hf]

theorem frameWrite_of_ok {s : State} {f : Frame} (hr : s.running = true) (htx : s.tx = some f)
    (hy : s.pins.txDone = true) (hf : s.pins.txFault = false) : frameWrite f s = answerOk f s := by
  simp [frameWrite, hr, htx, hy, hf]

/-- A frame's number from its two bytes (20_memory.md R31). -/
theorem toNat_eq_bytes (f : Frame) : f.toNat = (f.extractLsb' 8 8).toNat * 256 + (f.extractLsb' 0 8).toNat := by
  have happend : f.extractLsb' 8 8 ++ f.extractLsb' 0 8 = f := by
    rw [BitVec.extractLsb'_append_extractLsb'_eq_extractLsb' (by decide), BitVec.extractLsb'_eq_self]
  conv_lhs => rw [← happend]
  rw [BitVec.toNat_append, ← Nat.shiftLeft_add_eq_or_of_lt (f.extractLsb' 0 8).isLt, Nat.shiftLeft_eq]

/-- Settles O33: the frame goes onto the free port (`frameWrite_of_free`) and its bytes into the log. -/
theorem frameGoesOutMostSignificantByteFirst : Obligations.FrameGoesOutMostSignificantByteFirst := by
  intro s i hi hr htx
  exact ⟨_, _, by rw [exec_of_isFrame hi, frameWrite_of_free hr htx]; rfl, toNat_eq_bytes _⟩

/-- Settles O34: without `tx_done` the frame in flight is held. -/
theorem frameIsHeldUntilAnswered : Obligations.FrameIsHeldUntilAnswered := by
  intro s i hi _ htx hy
  rw [exec_of_isFrame hi, frameWrite_of_waiting htx hy]

/-- Settles O35: a fault answer forms the response with `SEQ.K`, zero-extended. -/
theorem faultAnswerEndsTheCommand : Obligations.FaultAnswerEndsTheCommand := by
  intro s i hi hr htx hy hf
  refine ⟨s.seq.k.setWidth 16, ?_, BitVec.toNat_setWidth_of_le (by decide)⟩
  rw [exec_of_isFrame hi, frameWrite_of_fault hr htx hy hf]
  rfl

theorem answerOk_inside {s : State} {p : List SubOp} (hp : s.plan? = some p) (f : Frame)
    (hk : s.seq.k.toNat + 1 ≠ framesBefore p (s.seq.j.toNat + 1)) : answerOk f s = .next (s.frameOk f) := by
  simp [answerOk, hp, hk]

theorem answerOk_nextSubOp {s : State} {p : List SubOp} {so : SubOp} (hp : s.plan? = some p) (f : Frame)
    (hk : s.seq.k.toNat + 1 = framesBefore p (s.seq.j.toNat + 1)) (hso : p[s.seq.j.toNat + 1]? = some so) :
    answerOk f s = .next ((s.frameOk f).commitSubOp.nextSubOp so) := by
  simp only [answerOk, hp, hso, if_pos hk]

theorem answerOk_finish {s : State} {p : List SubOp} (hp : s.plan? = some p) (f : Frame)
    (hk : s.seq.k.toNat + 1 = framesBefore p (s.seq.j.toNat + 1)) (hso : p[s.seq.j.toNat + 1]? = none) :
    answerOk f s = .next (s.frameOk f).commitSubOp.finish := by
  simp only [answerOk, hp, hso, if_pos hk]

/-- Settles O36: the three ways an Ok answer goes on (`answerOk_inside`, `answerOk_nextSubOp`, `answerOk_finish`), the last
with the mode of RESET or of a setter. -/
theorem okAnswerAdvancesThePlan : Obligations.OkAnswerAdvancesThePlan := by
  intro s i p hi hr htx hy hf hp
  rw [exec_of_isFrame hi, frameWrite_of_ok hr htx hy hf]
  refine ⟨fun hk => answerOk_inside hp _ hk, fun so hk hso => answerOk_nextSubOp hp _ hk hso, fun hk hso hcmd => ?_,
    fun hk hso hcmd => ?_⟩
  · have hmode := finishMode_of_setter s.mode (reset_word ▸ hcmd)
    rw [answerOk_finish hp _ hk hso]
    simp [State.finish, State.commitSubOp, State.frameOk, hmode]
  · have hmode := finishMode_of_reset s.mode (reset_word ▸ hcmd)
    rw [answerOk_finish hp _ hk hso]
    simp [State.finish, State.commitSubOp, State.frameOk, hmode]

theorem frameAddr_eq_resetAddr_iff (f : Frame) : frameAddr f = resetAddr ↔ (frameAddr f).toNat = 0x0F :=
  BitVec.toNat_inj.symm

/-- The register of a frame answered `Ok`, and every other. -/
theorem Memory.read_answeredOk (mem : Memory) (f : Frame) (b : Nat) :
    Memory.read (Memory.answeredOk mem f) b =
      if b = (frameAddr f).toNat then some (framePayload f)
      else if (frameAddr f).toNat = 0x0F then none else Memory.read mem b := by
  unfold Memory.answeredOk
  simp only [frameAddr_eq_resetAddr_iff]
  split_ifs with hreset hb hb
  · rw [hb, Memory.read_write_self]
  · rw [Memory.read_write_other _ _ hb]; rfl
  · rw [hb, Memory.read_write_self]
  · exact Memory.read_write_other _ _ hb

/-- The register of a frame answered `Fault`, and every other. -/
theorem Memory.read_answeredUnknown {mem : Memory} (hwf : Memory.wf mem = true) (f : Frame) (b : Nat) :
    Memory.read (Memory.answeredUnknown mem f) b =
      if b = (frameAddr f).toNat then none
      else if (frameAddr f).toNat = 0x0F then none else Memory.read mem b := by
  unfold Memory.answeredUnknown
  simp only [frameAddr_eq_resetAddr_iff]
  split_ifs with hreset hb hb
  · rfl
  · rfl
  · rw [hb, Memory.read_forget_self _ hwf]
  · exact Memory.read_forget_other _ hb

/-- Settles O37: what is read of each register after either answer, and the canonical form. -/
theorem ghostRegistersFollowTheAnswers : Obligations.GhostRegistersFollowTheAnswers := by
  intro mem f hwf
  refine ⟨?_, ?_, fun b hb => ⟨?_, ?_⟩, Memory.answeredOk_wf f hwf, Memory.answeredUnknown_wf f hwf⟩
  · rw [Memory.read_answeredOk, if_pos rfl]
  · rw [Memory.read_answeredUnknown hwf, if_pos rfl]
  · rw [Memory.read_answeredOk, if_neg hb]
  · rw [Memory.read_answeredUnknown hwf, if_neg hb]

end Sys2Proof.Machine
end

section
/-! Rules of the whole machine (10_state.md, 20_memory.md section 4, 60_exceptions.md): each is read off the moves of a step. -/

namespace Sys2Proof.Machine

/-! ### What one move leaves alone -/

/-- The mode after an Ok answer: as before, or the end of the command. -/
theorem AnsweredOk.mode_eq {s t : State} {f : Frame} (h : AnsweredOk s f t) :
    t.mode = s.mode ∨ t.mode = finishMode s.seq.cmd s.mode ∧ t.rsp = some ⟨.ok, 0#16⟩
      ∧ ∃ p, s.plan? = some p ∧ s.seq.k.toNat + 1 = framesBefore p (s.seq.j.toNat + 1)
        ∧ p.length ≤ s.seq.j.toNat + 1 := by
  cases h with
  | inside => exact .inl rfl
  | nextSubOp => exact .inl rfl
  | finish p hp hk hso => exact .inr ⟨rfl, rfl, p, hp, hk, List.getElem?_eq_none_iff.mp hso⟩

/-- An Ok answer leaves the fault record, the bytes sent, the command and the parameters. -/
theorem AnsweredOk.frame {s t : State} {f : Frame} (h : AnsweredOk s f t) :
    t.faultValid = s.faultValid ∧ t.faultCmd = s.faultCmd ∧ t.wire = s.wire ∧ t.seq.cmd = s.seq.cmd ∧ t.tx = none := by
  cases h <;> exact ⟨rfl, rfl, rfl, rfl, rfl⟩

/-- The mirror after an Ok answer: as before, or with the values of the sub-operation that it completes. -/
theorem AnsweredOk.m_eq {s t : State} {f : Frame} (h : AnsweredOk s f t) :
    t.m = s.m ∨ t.m = s.m.commit s.seq.snap
      ∧ ∃ p, s.plan? = some p ∧ s.seq.k.toNat + 1 = framesBefore p (s.seq.j.toNat + 1) := by
  cases h with
  | inside => exact .inl rfl
  | nextSubOp p _ hp hk => exact .inr ⟨rfl, p, hp, hk⟩
  | finish p hp hk => exact .inr ⟨rfl, p, hp, hk⟩

/-- Accepting a command leaves the mirror and sends nothing. -/
theorem Accepted.frame {s t : State} {i : Instr} (h : Accepted s i t) : t.m = s.m ∧ t.wire = s.wire := by
  cases h <;> exact ⟨rfl, rfl⟩

/-! ### MODE and the fault record -/

theorem Moves.to_ready {s u : State} (h : Moves s u) (hu : u.mode = .ready) (hs : s.mode ≠ .ready) :
    s.running = true ∧ s.seq.cmd = 0x10000000#32 ∧ s.tx ≠ none ∧ s.pins.txDone = true ∧ s.pins.txFault = false
      ∧ u.rsp = some ⟨.ok, 0#16⟩
      ∧ ∃ p, s.plan? = some p ∧ s.seq.k.toNat + 1 = framesBefore p (s.seq.j.toNat + 1)
        ∧ p.length ≤ s.seq.j.toNat + 1 := by
  cases h with
  | hardwareReset => simp at hu
  | deliver => exact absurd hu hs
  | hold => exact absurd hu hs
  | illegal => exact absurd hu hs
  | emit => exact absurd hu hs
  | fault => exact absurd hu hs
  | command _ hready _ i _ ha =>
    rcases accepted_cases hready ha with ⟨_, _, rfl⟩ | ⟨-, -, -, rfl⟩ | ⟨so, rest, hi, -, -, rfl⟩
    · exact absurd hu hs
    · simp at hu
    · rcases hi with rfl | ⟨-, hm⟩
      · simp [State.begin] at hu
      · exact absurd hm hs
  | ok _ hr i htx hy hf ha =>
    rcases ha.mode_eq with hm | ⟨hm, hrsp, hlast⟩
    · exact absurd (hm.symm.trans hu) hs
    · have hcmd : s.seq.cmd = Instr.reset.word := by
        by_contra hne
        exact hs ((finishMode_of_setter _ hne).symm.trans (hm.symm.trans hu))
      exact ⟨hr, hcmd, by simp [htx], hy, hf, hrsp, hlast⟩

/-- Settles O46: of the moves only the end of a RESET leads to `READY` (`Moves.to_ready`). -/
theorem readyOnlyAfterACompleteReset : Obligations.ReadyOnlyAfterACompleteReset := by
  intro s t hstep ht hs
  obtain ⟨u, hmove, rfl⟩ := step_cases hstep
  simpa using hmove.to_ready (by simpa using ht) hs

theorem Moves.to_uninit {s u : State} (h : Moves s u) (hu : u.mode = .uninit) (hs : s.mode ≠ .uninit) :
    s.pins.rstN = false
    ∨ (s.pins.rstN = true ∧ s.cmdReady = true ∧ s.mode = .ready ∧ s.pins.cmdValid = true
        ∧ s.pins.cmdWord = 0x10000000#32 ∧ u.seq.busy = true ∧ u.seq.cmd = 0x10000000#32 ∧ u.m = s.m ∧ u.wire = s.wire) := by
  cases h with
  | hardwareReset hrst => exact .inl hrst
  | deliver => exact absurd hu hs
  | hold => exact absurd hu hs
  | illegal => exact absurd hu hs
  | emit => exact absurd hu hs
  | fault => exact absurd hu hs
  | command hrst hready hv i hd ha =>
    rcases accepted_cases hready ha with ⟨_, _, rfl⟩ | ⟨-, -, -, rfl⟩ | ⟨so, rest, hi, -, -, rfl⟩
    · exact absurd hu hs
    · simp at hu
    · rcases hi with rfl | ⟨hi, -⟩
      · exact .inr ⟨hrst, hready, State.ready_of_cmdReady hready hs, hv, (word_of_decodeCommand hd).symm, rfl, rfl, rfl, rfl⟩
      · simp [State.begin, not_isSetter_reset hi] at hu
  | ok _ hr i htx hy hf ha =>
    rcases ha.mode_eq with hm | ⟨hm, -⟩
    · exact absurd (hm.symm.trans hu) hs
    · rw [hm, finishMode] at hu
      split_ifs at hu
      exact absurd hu hs

/-- Settles O47: of the moves only hardware reset and the beginning of RESET lead to `UNINIT` (`Moves.to_uninit`). -/
theorem uninitOnlyByAResetOrHardwareReset : Obligations.UninitOnlyByAResetOrHardwareReset := by
  intro s t hstep ht hs
  obtain ⟨u, hmove, rfl⟩ := step_cases hstep
  simpa using hmove.to_uninit (by simpa using ht) hs

/-- The move that raises ValueOutOfRange: `READY` accepts a setter with an operand out of range. -/
def State.RaisesRangeError (s u : State) : Prop :=
  ∃ i, s.pins.rstN = true ∧ s.cmdReady = true ∧ s.mode = .ready ∧ s.pins.cmdValid = true
    ∧ decodeCommand s.pins.cmdWord = .ok i ∧ i.isSetter = true ∧ i.inRange = false
    ∧ u = (s.accept s.pins.cmdWord).raiseValueOutOfRange s.pins.cmdWord

/-- Every move but hardware reset and that one keeps the fault record, and does not lead to `FATAL`. -/
theorem Moves.fault_cases {s u : State} (h : Moves s u) :
    (s.pins.rstN = true ∧ u.faultValid = s.faultValid ∧ u.faultCmd = s.faultCmd ∧ (u.mode = .fatal → s.mode = .fatal))
    ∨ (s.pins.rstN = false ∧ u = s.hardwareReset) ∨ s.RaisesRangeError u := by
  cases h with
  | hardwareReset hrst => exact .inr (.inl ⟨hrst, rfl⟩)
  | deliver hrst => exact .inl ⟨hrst, rfl, rfl, id⟩
  | hold hrst => exact .inl ⟨hrst, rfl, rfl, id⟩
  | illegal hrst => exact .inl ⟨hrst, rfl, rfl, id⟩
  | emit hrst => exact .inl ⟨hrst, rfl, rfl, id⟩
  | fault hrst => exact .inl ⟨hrst, rfl, rfl, id⟩
  | command hrst hready hv i hd ha =>
    rcases accepted_cases hready ha with ⟨_, _, rfl⟩ | ⟨hi, hm, hr, rfl⟩ | ⟨so, rest, -, -, -, rfl⟩
    · exact .inl ⟨hrst, rfl, rfl, id⟩
    · exact .inr (.inr ⟨i, hrst, hready, hm, hv, hd, hi, hr, by rw [word_of_decodeCommand hd]⟩)
    · refine .inl ⟨hrst, rfl, rfl, fun hu => ?_⟩
      by_cases hi : i = .reset <;> simp [State.begin, hi] at hu
  | ok hrst hr i htx hy hf ha =>
    obtain ⟨hvalid, hcmd, -⟩ := ha.frame
    refine .inl ⟨hrst, hvalid, hcmd, fun hu => ?_⟩
    rcases ha.mode_eq with hm | ⟨hm, -⟩
    · exact hm.symm.trans hu
    · by_contra hs
      exact finishMode_ne_fatal s.seq.cmd hs (hm.symm.trans hu)

/-- Settles O48: of the moves only the range error leads to `FATAL` (`Moves.fault_cases`). -/
theorem fatalOnlyByAnOperandOutOfRange : Obligations.FatalOnlyByAnOperandOutOfRange := by
  intro s t hstep ht hs
  obtain ⟨u, hmove, rfl⟩ := step_cases hstep
  rcases hmove.fault_cases with ⟨-, -, -, hkeep⟩ | ⟨-, rfl⟩ | ⟨i, hrst, hready, hm, hv, hd, hi, hr, rfl⟩
  · exact absurd (hkeep (by simpa using ht)) hs
  · simp at ht
  · exact ⟨i, hrst, hready, hm, hv, hd, hi, hr, by simp⟩

/-- Settles O49: the three cases of `Moves.fault_cases`. -/
theorem faultRecordIsWrittenByRangeErrorsOnly : Obligations.FaultRecordIsWrittenByRangeErrorsOnly := by
  intro s t hstep
  obtain ⟨u, hmove, rfl⟩ := step_cases hstep
  rcases hmove.fault_cases with ⟨hrst, hvalid, hcmd, -⟩ | ⟨hrst, rfl⟩ | ⟨i, hrst, hready, hm, hv, hd, hi, hr, rfl⟩
  · exact .inl ⟨hrst, by simpa using hvalid, by simpa using hcmd⟩
  · exact .inr (.inl ⟨hrst, by simp⟩)
  · exact .inr (.inr ⟨i, hrst, hready, hm, hv, hd, hi, hr, by simp⟩)

/-! ### The mirror and the bytes sent -/

/-- Settles O50: with reset released only an Ok answer can write the mirror (`AnsweredOk.m_eq`). -/
theorem mirrorChangesOnlyWhenASubOperationSucceeds : Obligations.MirrorChangesOnlyWhenASubOperationSucceeds := by
  intro s t hstep hrst hne
  obtain ⟨u, hmove, rfl⟩ := step_cases hstep
  rw [State.advance_m] at hne ⊢
  cases hmove with
  | hardwareReset h => simp [hrst] at h
  | deliver => exact absurd rfl hne
  | hold => exact absurd rfl hne
  | illegal => exact absurd rfl hne
  | emit => exact absurd rfl hne
  | fault => exact absurd rfl hne
  | command _ _ _ i _ ha => exact absurd ha.frame.1 hne
  | ok _ hr i htx hy hf ha =>
    obtain ⟨hm, hlast⟩ := ha.m_eq.resolve_left hne
    exact ⟨hr, by simp [htx], hy, hf, hm, hlast⟩

/-- A move sends nothing, or the planned frame when the port is free. -/
theorem Moves.wire_eq {s u : State} (h : Moves s u) :
    u.wire = s.wire ∨ ∃ f, s.tx = none ∧ s.running = true ∧ s.plannedFrame = some f ∧ u = s.emit f := by
  cases h with
  | hardwareReset => exact .inl rfl
  | deliver => exact .inl rfl
  | hold => exact .inl rfl
  | illegal => exact .inl rfl
  | fault => exact .inl rfl
  | command _ _ _ i _ ha => exact .inl ha.frame.2
  | emit _ hr htx f i hf hd => exact .inr ⟨f, htx, hr, hf, by rw [frame_of_decodeFrame hd]⟩
  | ok _ _ _ _ _ _ ha =>
    obtain ⟨-, -, hwire, -⟩ := ha.frame
    exact .inl hwire

/-- Settles O51: what a move sends goes onto the free port (`Moves.wire_eq`). -/
theorem oneWholeFrameAtATime : Obligations.OneWholeFrameAtATime := by
  intro s t hstep
  obtain ⟨u, hmove, rfl⟩ := step_cases hstep
  rcases hmove.wire_eq with hw | ⟨f, htx, hr, -, rfl⟩
  · exact .inl (by simpa using hw)
  · exact .inr ⟨f, htx, hr, by simp⟩

/-- Settles O52: what a move sends is the planned frame, and under the invariant that is one of the map. -/
theorem onlyFramesOfTheMapGoOut : Obligations.OnlyFramesOfTheMapGoOut := by
  intro s t hs hstep
  obtain ⟨u, hmove, rfl⟩ := step_cases hstep
  rcases hmove.wire_eq with hw | ⟨f, -, hr, hf, rfl⟩
  · exact .inl (by simpa using hw)
  · obtain ⟨_, _, _, hat⟩ := hs.at hr
    obtain ⟨g, hg, hmap⟩ := hat.plannedFrame
    obtain rfl := Option.some.inj (hf.symm.trans hg)
    obtain ⟨⟨i, hi⟩, haddr, hbit⟩ := ofMap_iff.mp hmap
    exact .inr ⟨f, i, by simp, hi, haddr, hbit⟩

/-! ### The invariant's consequences -/

/-- Settles O54: the frame at `SEQ.K` is one of at most fifteen. -/
theorem frameIndexIsAtMostFourteen : Obligations.FrameIndexIsAtMostFourteen := by
  intro s hs hr
  obtain ⟨_, _, _, hat⟩ := hs.at hr
  exact Nat.lt_succ_iff.mp hat.k_lt

/-- Settles O56: the reset state is stopped, in `UNINIT`, with the default order and no register known. -/
theorem resetMeetsTheInvariant : Obligations.ResetMeetsTheInvariant :=
  .of_stopped (List.Perm.refl _) reset_chip_wf (by decide) (by decide) (by decide) rfl rfl

/-- A command never stops the machine: an operation that runs has a plan. -/
theorem exec_command_next {i : Instr} (hi : i.isFrame = false) (s : State) : ∃ t, exec i s = .next t := by
  rcases Bool.eq_false_or_eq_true s.cmdReady with hs | hs
  · rcases instr_kinds i with rfl | hk | hk | hk
    · obtain ⟨so, rest, hp⟩ := plan_eq_cons (cfg := s.cfg) (.inl rfl) (i := .reset) rfl
      exact ⟨_, by rw [exec_reset, runReset, if_pos hs, hp]; rfl⟩
    · rw [exec_of_isSetter hk, runSetter, if_pos hs]
      split_ifs with hm hr
      · exact ⟨_, rfl⟩
      · obtain ⟨so, rest, hp⟩ := plan_eq_cons (cfg := s.cfg) (.inr hk) hr
        exact ⟨_, by rw [hp]; rfl⟩
      · exact ⟨_, rfl⟩
    · obtain ⟨v, hv⟩ := exec_of_isGetter hk s
      exact ⟨_, by rw [hv, runGetter, if_pos hs]⟩
    · simp [hi] at hk
  · exact ⟨s, exec_of_not_cmdReady hi hs⟩

/-- An Ok answer inside a plan goes on in one of its three ways. -/
theorem answerOk_next {s : State} {p : List SubOp} (hp : s.plan? = some p) (f : Frame) : ∃ t, answerOk f s = .next t := by
  by_cases hk : s.seq.k.toNat + 1 = framesBefore p (s.seq.j.toNat + 1)
  · cases hso : p[s.seq.j.toNat + 1]? with
    | none => exact ⟨_, answerOk_finish hp f hk hso⟩
    | some so => exact ⟨_, answerOk_nextSubOp hp f hk hso⟩
  · exact ⟨_, answerOk_inside hp f hk⟩

/-- The frame at hand is put on the port, held, or answered. -/
theorem frameWrite_next {s : State} {p : List SubOp} {f : Frame} (hr : s.running = true) (hp : s.plan? = some p)
    (hf : s.tx = some f ∨ s.tx = none) : ∃ t, frameWrite f s = .next t := by
  rcases hf with htx | htx
  · rcases Bool.eq_false_or_eq_true s.pins.txDone with hy | hy
    · rcases Bool.eq_false_or_eq_true s.pins.txFault with hz | hz
      · exact ⟨_, frameWrite_of_fault hr htx hy hz⟩
      · rw [frameWrite_of_ok hr htx hy hz]
        exact answerOk_next hp f
    · exact ⟨_, frameWrite_of_waiting htx hy⟩
  · exact ⟨_, frameWrite_of_free hr htx f⟩

/-- Under the invariant the frame at hand is the planned one, whether on the port or not. -/
theorem State.Inv.frame_at_hand {s : State} (h : s.Inv) (hr : s.running = true) :
    ∃ f, s.plannedFrame = some f ∧ ofMap f = true ∧ (s.tx = some f ∨ s.tx = none) := by
  obtain ⟨_, _, _, hat⟩ := h.at hr
  obtain ⟨f, hf, hmap⟩ := hat.plannedFrame
  refine ⟨f, hf, hmap, ?_⟩
  by_cases htx : s.tx = none
  · exact .inr htx
  · exact .inl ((h.txPlanned htx).2.trans hf)

/-- The step of a running command is the write of its frame. -/
theorem State.Inv.step_running {s : State} (h : s.Inv) (hr : s.running = true) (hrst : s.pins.rstN = true) :
    ∃ f, s.plannedFrame = some f ∧ (s.tx = some f ∨ s.tx = none) ∧ step s = thenAdvance (frameWrite f s) := by
  obtain ⟨f, hf, hmap, htx⟩ := h.frame_at_hand hr
  obtain ⟨i, hd⟩ := decodeFrame_of_ofMap hmap
  exact ⟨f, hf, htx, step_of_frame (edge_of_frame hrst hr (htx.imp_right fun htx => ⟨htx, hf⟩)) hd⟩

/-- Settles O58: by the kind of edge; only the running command's needs the invariant. -/
theorem theMachineNeverStops : Obligations.TheMachineNeverStops := by
  intro s hs
  rcases Bool.eq_false_or_eq_true s.pins.rstN with hrst | hrst
  swap
  · exact ⟨_, by simp only [step, State.edge, hrst]; rfl⟩
  cases hrsp : s.rsp with
  | some r =>
    obtain ⟨-, hhold, hdeliver⟩ := responseIsHeldUntilTaken s r hrst hrsp
    rcases Bool.eq_false_or_eq_true s.pins.rspReady with hy | hy
    · exact ⟨_, hdeliver hy⟩
    · exact ⟨_, hhold hy⟩
  | none =>
    rcases Bool.eq_false_or_eq_true s.seq.busy with hb | hb
    · have hr := s.running_iff.mpr ⟨hb, hrsp⟩
      obtain ⟨f, -, htx, hstep⟩ := hs.step_running hr hrst
      obtain ⟨_, _, _, hat⟩ := hs.at hr
      obtain ⟨t, ht⟩ := frameWrite_next hr hat.plan?_eq htx
      exact ⟨_, by rw [hstep, ht, thenAdvance_next]⟩
    · rcases Bool.eq_false_or_eq_true s.pins.cmdValid with hv | hv
      · have hedge := edge_of_command hrst hrsp hb hv
        cases hd : decodeCommand s.pins.cmdWord with
        | ok i =>
          obtain ⟨t, ht⟩ := exec_command_next (decodeCommand_isFrame hd) s
          exact ⟨_, by rw [step_of_command hedge hd, ht, thenAdvance_next]⟩
        | error e =>
          simp only [step, hedge, hd, runIllegal]
          split_ifs <;> exact ⟨_, rfl⟩
      · exact ⟨_, by simp only [step, edge_of_noCommand hrst hrsp hb hv]; rfl⟩

/-! ### The codec is never read -/

/-- The state with other ghosts: another knowledge of the codec, another log of bytes sent. -/
def State.withGhosts (s : State) (chip : Memory) (wire : List Byte) : State := { s with chip := chip, wire := wire }

/-- Two outcomes that differ in the ghosts alone. -/
def GhostsApart (o o' : Host.Outcome State Fault Refusal) : Prop :=
  match o with
  | .next t => ∃ chip wire, o' = .next (t.withGhosts chip wire)
  | .fault r => o' = .fault r
  | .refused r => o' = .refused r

theorem GhostsApart.next (t : State) (chip : Memory) (wire : List Byte) :
    GhostsApart (.next t) (.next (t.withGhosts chip wire)) := ⟨chip, wire, rfl⟩

theorem GhostsApart.thenAdvance {o o' : Host.Outcome State Fault Refusal} (h : GhostsApart o o') :
    GhostsApart (thenAdvance o) (thenAdvance o') := by
  cases o with
  | next t =>
    obtain ⟨chip, wire, rfl⟩ := h
    refine ⟨chip, wire, ?_⟩
    rw [thenAdvance_next]
    unfold State.advance
    cases hf : t.future <;> simp [State.withGhosts, hf]
  | fault r => rw [show o' = .fault r from h]; rfl
  | refused r => rw [show o' = .refused r from h]; rfl

/-- A choice by a condition that reads neither ghost. -/
theorem GhostsApart.ite {c : Prop} [Decidable c] {a a' b b' : Host.Outcome State Fault Refusal} (ha : GhostsApart a a')
    (hb : GhostsApart b b') : GhostsApart (if c then a else b) (if c then a' else b') := by
  split_ifs
  · exact ha
  · exact hb

theorem runPlan_ghostsApart (p : Except PackFail (List SubOp)) (w : Command) (s : State) (chip : Memory)
    (wire : List Byte) : GhostsApart (runPlan p w s) (runPlan p w (s.withGhosts chip wire)) := by
  match p with
  | .error .valueOutOfRange => exact .next _ chip wire
  | .error .outsideDomain => rfl
  | .ok [] => exact .next _ chip wire
  | .ok (so :: _) => exact .next _ chip wire

theorem answerOk_ghostsApart (f : Frame) (s : State) (chip : Memory) (wire : List Byte) :
    GhostsApart (answerOk f s) (answerOk f (s.withGhosts chip wire)) := by
  have hplan : (s.withGhosts chip wire).plan? = s.plan? := rfl
  cases hp : s.plan? with
  | none => simp only [answerOk, hp, hplan]; rfl
  | some p =>
    by_cases hk : s.seq.k.toNat + 1 = framesBefore p (s.seq.j.toNat + 1)
    · cases hso : p[s.seq.j.toNat + 1]? with
      | none =>
        rw [answerOk_finish hp f hk hso, answerOk_finish (s := s.withGhosts chip wire) hp f hk hso]
        exact .next _ (chip.answeredOk f) wire
      | some so =>
        rw [answerOk_nextSubOp hp f hk hso, answerOk_nextSubOp (s := s.withGhosts chip wire) hp f hk hso]
        exact .next _ (chip.answeredOk f) wire
    · rw [answerOk_inside hp f hk, answerOk_inside (s := s.withGhosts chip wire) hp f hk]
      exact .next _ (chip.answeredOk f) wire

theorem frameWrite_ghostsApart (f : Frame) (s : State) (chip : Memory) (wire : List Byte) :
    GhostsApart (frameWrite f s) (frameWrite f (s.withGhosts chip wire)) := by
  refine .ite (c := s.running = true) ?_ (.next _ chip wire)
  have htx : (s.withGhosts chip wire).tx = s.tx := rfl
  rw [htx]
  cases s.tx with
  | none => exact .next _ chip (wire ++ frameBytes f)
  | some g =>
    exact .ite (.ite (.next _ (chip.answeredUnknown f) wire) (answerOk_ghostsApart f s chip wire)) (.next _ chip wire)

theorem runSetter_ghostsApart (w : Command) (r : Bool) (p : Except PackFail (List SubOp)) (s : State) (chip : Memory)
    (wire : List Byte) : GhostsApart (runSetter w r p s) (runSetter w r p (s.withGhosts chip wire)) :=
  .ite (c := s.cmdReady = true)
    (.ite (c := s.mode = .uninit) (.next _ chip wire) (.ite (runPlan_ghostsApart p w _ chip wire) (.next _ chip wire)))
    (.next _ chip wire)

theorem runReset_ghostsApart (w : Command) (p : Except PackFail (List SubOp)) (s : State) (chip : Memory)
    (wire : List Byte) : GhostsApart (runReset w p s) (runReset w p (s.withGhosts chip wire)) :=
  .ite (c := s.cmdReady = true) (runPlan_ghostsApart p w _ chip wire) (.next _ chip wire)

theorem runGetter_ghostsApart (w : Command) (d : BitVec 16) (s : State) (chip : Memory) (wire : List Byte) :
    GhostsApart (runGetter w d s) (runGetter w d (s.withGhosts chip wire)) :=
  .ite (c := s.cmdReady = true) (.next _ chip wire) (.next _ chip wire)

theorem runIllegal_ghostsApart (w : Command) (s : State) (chip : Memory) (wire : List Byte) :
    GhostsApart (runIllegal w s) (runIllegal w (s.withGhosts chip wire)) :=
  .ite (c := s.cmdReady = true) (.next _ chip wire) (.next _ chip wire)

/-- A getter reads the mirror alone. -/
theorem exec_getter_ghostsApart (s : State) (chip : Memory) (wire : List Byte) :
    ∀ {i : Instr}, i.isGetter = true → GhostsApart (exec i s) (exec i (s.withGhosts chip wire))
  | .getiv _, _ | .getov _, _ | .getpm, _ | .getmix _, _ | .getdv _, _ => runGetter_ghostsApart _ _ s chip wire

theorem exec_ghostsApart (i : Instr) (s : State) (chip : Memory) (wire : List Byte) :
    GhostsApart (exec i s) (exec i (s.withGhosts chip wire)) := by
  rcases instr_kinds i with rfl | hk | hk | hk
  · exact runReset_ghostsApart _ _ s chip wire
  · rw [exec_of_isSetter hk, exec_of_isSetter hk]
    exact runSetter_ghostsApart _ _ _ s chip wire
  · exact exec_getter_ghostsApart s chip wire hk
  · rw [exec_of_isFrame hk, exec_of_isFrame hk]
    exact frameWrite_ghostsApart _ s chip wire

/-- A step reads neither ghost: the edge is the same, and what it does differs in the ghosts alone. -/
theorem step_ghostsApart (s : State) (chip : Memory) (wire : List Byte) :
    GhostsApart (step s) (step (s.withGhosts chip wire)) := by
  have hedge : (s.withGhosts chip wire).edge = s.edge := rfl
  unfold step
  rw [hedge]
  cases s.edge with
  | reset => exact GhostsApart.thenAdvance (.next s.hardwareReset (s.withGhosts chip wire).hardwareReset.chip wire)
  | deliver => exact GhostsApart.thenAdvance (.next s.deliver chip wire)
  | hold => exact GhostsApart.thenAdvance (.next s chip wire)
  | command w =>
    dsimp only
    cases decodeCommand w with
    | ok i => exact (exec_ghostsApart i s chip wire).thenAdvance
    | error e => exact (runIllegal_ghostsApart w s chip wire).thenAdvance
  | frame f =>
    dsimp only
    cases decodeFrame f with
    | ok i => exact (exec_ghostsApart i s chip wire).thenAdvance
    | error e => rfl
  | lost => rfl

/-- Settles O55: `step_ghostsApart`, read for each outcome. -/
theorem theCodecIsNeverRead : Obligations.TheCodecIsNeverRead := by
  intro s chip wire
  have hstep := step_ghostsApart s chip wire
  refine ⟨fun t ht => ?_, fun r hr => ?_, fun r hr => ?_⟩
  · rw [ht] at hstep
    exact hstep
  · rw [hr] at hstep
    exact hstep
  · rw [hr] at hstep
    exact hstep

end Sys2Proof.Machine
end

section
/-! Runs over listed inputs (41_setters.md section 1, 70_reset_and_hazards.md section 3): what one edge with given pins makes
of the block, the environment left out, and the runs that such edges compose to. -/

namespace Sys2Proof.Machine

/-! ### One edge -/

/-- The block of `e` in the environment of `t`. -/
def State.inEnv (e t : State) : State := { e with pins := t.pins, future := t.future, tick := t.tick }

/-- An edge with the pins `q` makes `e'` of `e`, whatever inputs follow. -/
def EdgeTo (q : Pins) (e e' : State) : Prop :=
  ∀ t : State, t.pins = q → step (e.inEnv t) = .next (e'.inEnv t).advance

/-- The edge of an idle block to which no command is presented. -/
theorem edgeTo_idle {q : Pins} {e : State} (he : e.idle) (hrst : q.rstN = true) (hv : q.cmdValid = false) :
    EdgeTo q e e := by
  rintro t rfl
  simp only [step, edge_of_noCommand (s := e.inEnv t) hrst he.2 he.1 hv]

/-- The edge of an idle block that is not ready, whatever is presented. -/
theorem edgeTo_notReady {q : Pins} {e : State} (he : e.idle) (hs : e.cmdReady = false) (hrst : q.rstN = true) :
    EdgeTo q e e := by
  rintro t rfl
  rcases Bool.eq_false_or_eq_true t.pins.cmdValid with hv | hv
  · have hedge := edge_of_command (s := e.inEnv t) hrst he.2 he.1 hv
    cases hd : decodeCommand (e.inEnv t).pins.cmdWord with
    | ok i =>
      rw [step_of_command hedge hd, exec_of_not_cmdReady (s := e.inEnv t) (decodeCommand_isFrame hd) hs, thenAdvance_next]
    | error r =>
      simp only [step, hedge, hd, runIllegal, show (e.inEnv t).cmdReady = false from hs]
      rfl
  · exact edgeTo_idle he hrst hv t rfl

/-- The edge of a running command is the write of its frame. -/
theorem edgeTo_frame {q : Pins} {e e' : State} {f : Frame} (hrst : q.rstN = true) (hr : e.running = true)
    (hd : ∃ i, decodeFrame f = .ok i) (hf : e.tx = some f ∨ e.tx = none ∧ e.plannedFrame = some f)
    (hw : ∀ t : State, t.pins = q → frameWrite f (e.inEnv t) = .next (e'.inEnv t)) : EdgeTo q e e' := by
  rintro t rfl
  obtain ⟨i, hd⟩ := hd
  rw [step_of_frame (edge_of_frame (s := e.inEnv t) hrst hr hf) hd, hw t rfl, thenAdvance_next]

/-- An unanswered frame is held. -/
theorem edgeTo_waiting {q : Pins} {e : State} {f : Frame} (hrst : q.rstN = true) (hy : q.txDone = false)
    (hr : e.running = true) (hd : ∃ i, decodeFrame f = .ok i) (htx : e.tx = some f) : EdgeTo q e e :=
  edgeTo_frame hrst hr hd (.inl htx) fun t ht => frameWrite_of_waiting (s := e.inEnv t) htx (by rw [← hy, ← ht]; rfl)

/-- The edge that accepts an operation begins its plan. -/
theorem exec_begins {s : State} {i : Instr} {so : SubOp} {rest : List SubOp} (hs : s.cmdReady = true)
    (hi : i = .reset ∨ i.isSetter = true ∧ s.mode = .ready) (hr : i.inRange = true)
    (hp : plan s.cfg i = .ok (so :: rest)) : exec i s = .next (s.begin i so) := by
  rcases hi with rfl | ⟨hi, hm⟩
  · rw [exec_reset, runReset, if_pos hs, hp]
    rfl
  · rw [exec_of_isSetter hi, runSetter, if_pos hs, if_neg (by simp [hm]), if_pos hr, hp, State.begin,
      if_neg (not_isSetter_reset hi), ← hm]
    rfl

theorem edgeTo_begin {s : State} {i : Instr} {so : SubOp} {rest : List SubOp} (hpres : s.presents i)
    (hi : i = .reset ∨ i.isSetter = true ∧ s.mode = .ready) (hr : i.inRange = true)
    (hp : plan s.cfg i = .ok (so :: rest)) : EdgeTo s.pins s (s.begin i so) := by
  intro t ht
  obtain ⟨hrst, hv, hw, hs, -⟩ := hpres
  rw [← ht] at hrst hv hw
  have hedge := edge_of_command (s := s.inEnv t) hrst (State.rsp_of_cmdReady hs) (State.busy_of_cmdReady hs) hv
  have hd : decodeCommand (s.inEnv t).pins.cmdWord = .ok i :=
    hw ▸ decodeCommand_word (isFrame_of_operation (hi.imp_right And.left))
  rw [step_of_command hedge hd, exec_begins (s := s.inEnv t) hs hi hr hp, thenAdvance_next]
  rfl

/-! ### Edge after edge -/

/-- The edges with the listed pins, one after the other, make `e'` of `e`. -/
inductive RunsOn : List Pins → State → State → Prop where
  | nil (e : State) : RunsOn [] e e
  | cons {q : Pins} {l : List Pins} {e e' e'' : State} (h : EdgeTo q e e') (hl : RunsOn l e' e'') : RunsOn (q :: l) e e''

theorem RunsOn.append {l l' : List Pins} {e e' e'' : State} (h : RunsOn l e e') (h' : RunsOn l' e' e'') :
    RunsOn (l ++ l') e e'' := by
  induction h with
  | nil => exact h'
  | cons hq _ ih => exact .cons hq (ih h')

theorem RunsOn.of_forall {l : List Pins} {e : State} (h : ∀ q ∈ l, EdgeTo q e e) : RunsOn l e e := by
  induction l with
  | nil => exact .nil e
  | cons q l ih =>
    rw [List.forall_mem_cons] at h
    exact .cons h.1 (ih h.2)

/-- The pins at this edge and those listed for the edges to come. -/
def State.inputs (s : State) : List Pins := s.pins :: s.future

/-- What begins the inputs after the first begins them at the next edge. -/
theorem State.inputs_advance {s : State} {q : Pins} {l : List Pins} (h : q :: l <+: s.inputs) :
    l <+: s.advance.inputs := by
  obtain ⟨-, hl⟩ := List.cons_prefix_cons.mp h
  cases hf : s.future with
  | nil =>
    rw [hf, List.prefix_nil] at hl
    simp [hl]
  | cons p ps =>
    rw [hf] at hl
    simpa [State.advance_of_future hf, State.inputs] using hl

theorem State.advance_isBut (e t : State) : (e.inEnv t).advance.isBut e := by
  unfold State.advance
  cases (e.inEnv t).future <;> rfl

/-- A block whose inputs begin with the listed pins runs as they say. -/
theorem RunsOn.runsTo {l : List Pins} {e e' : State} (h : RunsOn l e e') {t : State} (ht : t.isBut e)
    (hl : l <+: t.inputs) : RunsTo l.length t e' := by
  induction h generalizing t with
  | nil e => exact ⟨t, rfl, ht⟩
  | @cons q l e e' e'' hq _ ih =>
    have hpins : t.pins = q := (List.cons_prefix_cons.mp hl).1.symm
    have hstep : step t = .next (e'.inEnv t).advance := by
      have h := hq t hpins
      rwa [← show t = e.inEnv t from ht] at h
    have hnext : l <+: (e'.inEnv t).advance.inputs := State.inputs_advance (s := e'.inEnv t) hl
    obtain ⟨u, hu, hbut⟩ := ih (State.advance_isBut e' t) hnext
    exact ⟨u, by rw [List.length_cons, runFor_succ hstep, hu], hbut⟩

/-- A block that every listed edge leaves as it is stays so for as many edges. -/
theorem runsTo_self {s : State} (h : ∀ q ∈ s.inputs, EdgeTo q s s) {n : Nat} (hn : n ≤ s.future.length + 1) :
    RunsTo n s s := by
  have hrun : RunsOn (s.inputs.take n) s s := .of_forall fun q hq => h q (List.mem_of_mem_take hq)
  have hlen : (s.inputs.take n).length = n := by
    rw [List.length_take, State.inputs, List.length_cons, min_eq_left hn]
  rw [← hlen]
  exact hrun.runsTo rfl (List.take_prefix n _)

/-- Settles O42: an edge without `tx_done` holds the frame (`edgeTo_waiting`). -/
theorem blockWaitsForTheTransportForEver : Obligations.BlockWaitsForTheTransportForEver := by
  intro n s f i hr htx hd hpins hn
  obtain ⟨hb, -⟩ := s.running_iff.mp hr
  refine ⟨runsTo_self (fun q hq => ?_) hn, hb, ?_, ?_⟩
  · obtain ⟨hrst, hy⟩ := hpins q hq
    exact edgeTo_waiting hrst hy hr ⟨i, hd⟩ htx
  · simp [State.outputs, State.cmdReady, hb]
  · simp [State.outputs, (hpins s.pins (by simp)).1, htx]

/-- Settles O44: an edge without a command holds the idle block (`edgeTo_idle`). -/
theorem idleBlockStaysIdle : Obligations.IdleBlockStaysIdle := by
  intro n s hidle hpins hn
  refine runsTo_self (fun q hq => ?_) hn
  obtain ⟨hrst, hv⟩ := hpins q hq
  exact edgeTo_idle hidle hrst hv

/-- Settles O45: the fatal block is not ready, so every edge holds it (`edgeTo_notReady`). -/
theorem fatalBlockWaitsForHardwareReset : Obligations.FatalBlockWaitsForHardwareReset := by
  intro n s hm hidle hpins hn
  have hs : s.cmdReady = false := by simp [State.cmdReady, hm]
  exact ⟨runsTo_self (fun q hq => edgeTo_notReady hidle hs (hpins q hq)) hn, fun hfinal => hfinal.2 hm,
    by simp [State.outputs, hs]⟩

/-! ### One frame -/

section
variable {e : State} {i : Instr} {p : List SubOp} {so : SubOp} {f : Frame} {a b : Pins}

theorem State.At.decodes (hat : e.At i p so) (hf : e.plannedFrame = some f) : ∃ i, decodeFrame f = .ok i := by
  obtain ⟨g, hg, hmap⟩ := hat.plannedFrame
  obtain rfl := Option.some.inj (hf.symm.trans hg)
  exact decodeFrame_of_ofMap hmap

/-- The planned frame goes onto the free port. -/
theorem edgeTo_emit {q : Pins} (hat : e.At i p so) (hr : e.running = true) (htx : e.tx = none)
    (hf : e.plannedFrame = some f) (hrst : q.rstN = true) : EdgeTo q e (e.emit f) :=
  edgeTo_frame hrst hr (hat.decodes hf) (.inr ⟨htx, hf⟩) fun t _ => frameWrite_of_free (s := e.inEnv t) hr htx f

/-- A frame that is answered `Fault` at the first chance. -/
theorem runsOn_fault (hat : e.At i p so) (hr : e.running = true) (htx : e.tx = none) (hf : e.plannedFrame = some f) :
    RunsOn (answerEdges [(false, a, b)]) e ((e.emit f).frameFault f) := by
  refine .cons (edgeTo_emit hat hr htx hf rfl) (.cons (edgeTo_frame rfl hr (hat.decodes hf) (.inl rfl) ?_) (.nil _))
  exact fun t ht => frameWrite_of_fault (s := (e.emit f).inEnv t) hr rfl (congrArg Pins.txDone ht) (congrArg Pins.txFault ht)

/-- A frame that is answered `Ok` at the first chance goes on as `answerOk` says. -/
theorem runsOn_ok {e' : State} (hat : e.At i p so) (hr : e.running = true) (htx : e.tx = none)
    (hf : e.plannedFrame = some f) (ho : ∀ t : State, answerOk f ((e.emit f).inEnv t) = .next (e'.inEnv t)) :
    RunsOn (answerEdges [(true, a, b)]) e e' := by
  refine .cons (edgeTo_emit hat hr htx hf rfl) (.cons (edgeTo_frame rfl hr (hat.decodes hf) (.inl rfl) ?_) (.nil _))
  intro t ht
  rw [frameWrite_of_ok (s := (e.emit f).inEnv t) hr rfl (congrArg Pins.txDone ht) (congrArg Pins.txFault ht), ho]

theorem runsOn_inside (hat : e.At i p so) (hr : e.running = true) (htx : e.tx = none) (hf : e.plannedFrame = some f)
    (hk : e.seq.k.toNat + 1 ≠ framesBefore p (e.seq.j.toNat + 1)) :
    RunsOn (answerEdges [(true, a, b)]) e ((e.emit f).frameOk f) :=
  runsOn_ok hat hr htx hf fun t => answerOk_inside (s := (e.emit f).inEnv t) hat.plan?_eq f hk

theorem runsOn_nextSubOp {so' : SubOp} (hat : e.At i p so) (hr : e.running = true) (htx : e.tx = none)
    (hf : e.plannedFrame = some f) (hk : e.seq.k.toNat + 1 = framesBefore p (e.seq.j.toNat + 1))
    (hso : p[e.seq.j.toNat + 1]? = some so') :
    RunsOn (answerEdges [(true, a, b)]) e (((e.emit f).frameOk f).commitSubOp.nextSubOp so') :=
  runsOn_ok hat hr htx hf fun t => answerOk_nextSubOp (s := (e.emit f).inEnv t) hat.plan?_eq f hk hso

theorem runsOn_finish (hat : e.At i p so) (hr : e.running = true) (htx : e.tx = none) (hf : e.plannedFrame = some f)
    (hk : e.seq.k.toNat + 1 = framesBefore p (e.seq.j.toNat + 1)) (hso : p[e.seq.j.toNat + 1]? = none) :
    RunsOn (answerEdges [(true, a, b)]) e ((e.emit f).frameOk f).commitSubOp.finish :=
  runsOn_ok hat hr htx hf fun t => answerOk_finish (s := (e.emit f).inEnv t) hat.plan?_eq f hk hso

end

end Sys2Proof.Machine
end

section
/-! Whole commands (41_setters.md, 42_reset_and_getters.md section 1): the setters of one and of two frames, RESET, and the
procedure EXEC that every such run comes to. -/

namespace Sys2Proof.Machine

/-- A setter begins its plan in `READY`, where it stays. -/
theorem State.begin_of_isSetter {s : State} {i : Instr} (hi : i.isSetter = true) (hm : s.mode = .ready) (so : SubOp) :
    s.begin i so = { s with seq := ⟨true, i.word, 0#4, 0#4, so.commit⟩ } := by
  rw [State.begin, if_neg (not_isSetter_reset hi), ← hm]
  rfl

theorem State.begin_running {s : State} (hs : s.cmdReady = true) (i : Instr) (so : SubOp) :
    (s.begin i so).running = true := by
  simp [State.running, State.begin, State.rsp_of_cmdReady hs]

/-- The place in the plan is not moved by the frame going out. -/
theorem State.At.emit {s : State} {i : Instr} {p : List SubOp} {so : SubOp} (h : s.At i p so) (f : Frame) :
    (s.emit f).At i p so :=
  ⟨h.cmd, h.inRange, h.plan, h.shape, h.here, h.snap, h.le, h.lt, h.mode⟩

/-- The frame planned at `SEQ.K`. -/
theorem State.At.plannedFrame_eq {s : State} {i : Instr} {p : List SubOp} {so : SubOp} (h : s.At i p so) :
    s.plannedFrame = (planFrames p)[s.seq.k.toNat]? := by
  rw [State.plannedFrame, h.plan?_eq]

/-- Settles O24: RESET begins at the head of its closed form (`planReset_eq`), the Reset frame. -/
theorem resetBeginsWithTheResetFrame : Obligations.ResetBeginsWithTheResetFrame := by
  intro s hs hwf
  have hp := planReset_eq s.cfg
  refine ⟨_, exec_begins hs (.inl rfl) rfl hp, rfl, ?_⟩
  exact (State.begin_at (fun _ => hwf) (.inl rfl) rfl hp).plannedFrame_eq

/-! ### The setters -/

theorem word_ne_reset_word {i : Instr} (hi : i.isSetter = true) : i.word ≠ Instr.reset.word := fun h =>
  not_isSetter_reset hi ((eq_reset_word_iff (decodeCommand_word (isFrame_of_isSetter hi))).mp h)

section
variable {s : State} {i : Instr} (hs : s.cmdReady = true) (hm : s.mode = .ready) (hi : i.isSetter = true)
  (hr : i.inRange = true)
include hs hm hi hr

/-- A setter with a plan of one frame `f`: it begins, and with the frame answered at the first chance comes in three edges
to its end. -/
theorem setter_of_one_frame {f : Frame} {snap : Snap} (hp : plan s.cfg i = .ok [⟨[f], snap⟩]) :
    exec i s = .next { s with seq := ⟨true, i.word, 0#4, 0#4, snap⟩ }
    ∧ ∀ (ok : Bool) (p q : Pins) (rest : List Pins), s.presents i → s.future = answerEdges [(ok, p, q)] ++ rest →
      RunsTo 3 s (if ok then
          { s with
            m := s.m.commit snap, seq := ⟨true, i.word, 1#4, 1#4, snap⟩,
            rsp := some ⟨.ok, 0#16⟩, chip := s.chip.answeredOk f, wire := s.wire ++ frameBytes f }
        else
          { s with
            seq := ⟨true, i.word, 0#4, 0#4, snap⟩, rsp := some ⟨.transportFault, 0#16⟩,
            chip := s.chip.answeredUnknown f, wire := s.wire ++ frameBytes f }) := by
  have hbegin := State.begin_of_isSetter hi hm ⟨[f], snap⟩
  refine ⟨by rw [exec_begins hs (.inr ⟨hi, hm⟩) hr hp, hbegin], fun ok p q rest hpres hfuture => ?_⟩
  have hat := State.begin_at (s := s) (fun h => absurd h (not_isSetter_reset hi)) (.inr hi) hr hp
  have hrun := State.begin_running hs i ⟨[f], snap⟩
  have ⟨_, _, _, _, hfree⟩ := hpres
  have htx : (s.begin i ⟨[f], snap⟩).tx = none := hfree
  have hmode := finishMode_of_setter s.mode (word_ne_reset_word hi)
  have hf : (s.begin i ⟨[f], snap⟩).plannedFrame = some f := hat.plannedFrame_eq
  have hfirst := edgeTo_begin hpres (.inr ⟨hi, hm⟩) hr hp
  have hinputs : s.pins :: answerEdges [(ok, p, q)] <+: s.inputs := by simp [State.inputs, hfuture]
  cases ok with
  | true =>
    have h : RunsTo 3 s _ := (RunsOn.cons hfirst (runsOn_finish hat hrun htx hf rfl rfl)).runsTo (t := s) rfl hinputs
    rw [hbegin] at h
    simpa [State.finish, State.commitSubOp, State.frameOk, State.emit, hfree, hmode] using h
  | false =>
    have h : RunsTo 3 s _ := (RunsOn.cons hfirst (runsOn_fault hat hrun htx hf)).runsTo (t := s) rfl hinputs
    rw [hbegin] at h
    simpa [State.frameFault, State.emit, hfree] using h

/-- A setter with a plan of two frames `f` and `g` in one sub-operation: the same, in three edges when `f` is answered
`Fault`, else in five. -/
theorem setter_of_two_frames {f g : Frame} {snap : Snap} (hp : plan s.cfg i = .ok [⟨[f, g], snap⟩]) :
    exec i s = .next { s with seq := ⟨true, i.word, 0#4, 0#4, snap⟩ }
    ∧ ∀ (ok₁ ok₂ : Bool) (p₁ q₁ p₂ q₂ : Pins) (rest : List Pins), s.presents i →
      s.future = answerEdges [(ok₁, p₁, q₁), (ok₂, p₂, q₂)] ++ rest →
      (ok₁ = false → RunsTo 3 s { s with
        seq := ⟨true, i.word, 0#4, 0#4, snap⟩, rsp := some ⟨.transportFault, 0#16⟩,
        chip := s.chip.answeredUnknown f, wire := s.wire ++ frameBytes f })
      ∧ (ok₁ = true → ok₂ = false → RunsTo 5 s { s with
        seq := ⟨true, i.word, 0#4, 1#4, snap⟩, rsp := some ⟨.transportFault, 1#16⟩,
        chip := (s.chip.answeredOk f).answeredUnknown g, wire := s.wire ++ frameBytes f ++ frameBytes g })
      ∧ (ok₁ = true → ok₂ = true → RunsTo 5 s { s with
        m := s.m.commit snap, seq := ⟨true, i.word, 1#4, 2#4, snap⟩, rsp := some ⟨.ok, 0#16⟩,
        chip := (s.chip.answeredOk f).answeredOk g, wire := s.wire ++ frameBytes f ++ frameBytes g }) := by
  have hbegin := State.begin_of_isSetter hi hm ⟨[f, g], snap⟩
  refine ⟨by rw [exec_begins hs (.inr ⟨hi, hm⟩) hr hp, hbegin],
    fun ok₁ ok₂ p₁ q₁ p₂ q₂ rest hpres hfuture => ?_⟩
  have hat := State.begin_at (s := s) (fun h => absurd h (not_isSetter_reset hi)) (.inr hi) hr hp
  have hrun := State.begin_running hs i ⟨[f, g], snap⟩
  have ⟨_, _, _, _, hfree⟩ := hpres
  have htx : (s.begin i ⟨[f, g], snap⟩).tx = none := hfree
  have hf : (s.begin i ⟨[f, g], snap⟩).plannedFrame = some f := hat.plannedFrame_eq
  have hfirst := edgeTo_begin hpres (.inr ⟨hi, hm⟩) hr hp
  have hmode := finishMode_of_setter s.mode (word_ne_reset_word hi)
  -- After the Ok answer to `f` the block stands at `g`.
  have hk : (s.begin i ⟨[f, g], snap⟩).seq.k.toNat + 1
      ≠ framesBefore [⟨[f, g], snap⟩] ((s.begin i ⟨[f, g], snap⟩).seq.j.toNat + 1) :=
    (by decide : (1 : Nat) ≠ 2)
  have hat' := (hat.emit f).frameOk f hk
  have hg : (((s.begin i ⟨[f, g], snap⟩).emit f).frameOk f).plannedFrame = some g := hat'.plannedFrame_eq
  have hinside := runsOn_inside (a := p₁) (b := q₁) hat hrun htx hf hk
  refine ⟨?_, ?_, ?_⟩
  · rintro rfl
    have h : RunsTo 3 s _ := (RunsOn.cons hfirst (runsOn_fault (a := p₁) (b := q₁) hat hrun htx hf)).runsTo rfl
      (by simp [State.inputs, hfuture, answerEdges])
    rw [hbegin] at h
    simpa [State.frameFault, State.emit, hfree] using h
  · rintro rfl rfl
    have h : RunsTo 5 s _ :=
      (RunsOn.cons hfirst (hinside.append (runsOn_fault (a := p₂) (b := q₂) hat' hrun rfl hg))).runsTo rfl
        (by simp [State.inputs, hfuture, answerEdges])
    rw [hbegin] at h
    simpa [State.frameFault, State.frameOk, State.emit, hfree] using h
  · rintro rfl rfl
    have h : RunsTo 5 s _ :=
      (RunsOn.cons hfirst (hinside.append (runsOn_finish (a := p₂) (b := q₂) hat' hrun rfl hg rfl rfl))).runsTo rfl
        (by simp [State.inputs, hfuture, answerEdges])
    rw [hbegin] at h
    simpa [State.finish, State.commitSubOp, State.frameOk, State.emit, hfree, hmode] using h

end

/-- Settles O17: SETIV's plan is one frame (`planSetiv_eq`). -/
theorem setivSetsOneInputVolume : Obligations.SetivSetsOneInputVolume := fun _ ch a hs hm ha =>
  setter_of_one_frame (i := .setiv ch a) hs hm rfl (decide_eq_true ha) (planSetiv_eq ch a ha)

/-- Settles O18: SETOV's plan is one frame (`planSetov_eq`). -/
theorem setovSetsOneOutputVolume : Obligations.SetovSetsOneOutputVolume := fun _ ch a hs hm ha =>
  setter_of_one_frame (i := .setov ch a) hs hm rfl (decide_eq_true ha) (planSetov_eq ch a ha)

/-- Settles O19: SETPM's plan is word A and word B (`planSetpm_eq`). -/
theorem setpmSetsThePowerFlags : Obligations.SetpmSetsThePowerFlags := fun _ a hs hm =>
  setter_of_two_frames (i := .setpm a) hs hm rfl rfl (planSetpm_eq a)

/-- Settles O20: SETMIX's plan is word 1 and word 2 (`planSetmix_eq`). -/
theorem setmixSetsOneMixer : Obligations.SetmixSetsOneMixer := fun _ ch l r hs hm hl hr =>
  setter_of_two_frames (i := .setmix ch l r) hs hm rfl (decide_eq_true ⟨hl, hr⟩) (planSetmix_eq ch l r hl hr)

/-- Settles O21: SETDAI's plan is one frame and commits nothing (`planSetdai_eq`). -/
theorem setdaiWritesTheAudioInterface : Obligations.SetdaiWritesTheAudioInterface := fun _ a hs hm ha =>
  setter_of_one_frame (i := .setdai a) hs hm rfl (decide_eq_true ha) (planSetdai_eq a ha)

/-- Settles O22: SETDV's plan is one frame (`planSetdv_eq`). -/
theorem setdvSetsOneDacVolume : Obligations.SetdvSetsOneDacVolume := fun _ ch a hs hm =>
  setter_of_one_frame (i := .setdv ch a) hs hm rfl rfl (planSetdv_eq ch a)

/-- Settles O23: SETDM's plan is one frame (`planSetdm_eq`). -/
theorem setdmSetsTheMute : Obligations.SetdmSetsTheMute := fun _ a hs hm ha =>
  setter_of_one_frame (i := .setdm a) hs hm rfl (decide_eq_true ha) (planSetdm_eq a ha)

end Sys2Proof.Machine
end

section
/-! The procedure EXEC (41_setters.md R81) and the runs that come to it, for every list of answers. -/

namespace Sys2Proof.Machine

/-! ### EXEC's loop, frame by frame -/

/-- The loop stops at a frame that is answered `Fault`. -/
theorem execLoop_fault (f : Frame) (fs : List Frame) (snap : Snap) (rest : List SubOp) (answers : List Bool) (k : Nat)
    (m : Mirror) : execLoop (⟨f :: fs, snap⟩ :: rest) (false :: answers) k m
      = (m, [f], ⟨.transportFault, BitVec.ofNat 16 k⟩) := rfl

/-- The loop goes on behind a frame that is answered `Ok`. -/
theorem execLoop_ok (f : Frame) (fs : List Frame) (snap : Snap) (rest : List SubOp) (answers : List Bool) (k : Nat)
    (m : Mirror) : execLoop (⟨f :: fs, snap⟩ :: rest) (true :: answers) k m
      = let r := execLoop (⟨fs, snap⟩ :: rest) answers (k + 1) m
        (r.1, f :: r.2.1, r.2.2) := by
  simp only [execLoop, sendFrames]
  rcases sendFrames fs answers (k + 1) with ⟨sent, _ | j, left⟩
  · simp [Nat.add_assoc, Nat.add_comm]
  · rfl

/-- A sub-operation of which no frame is left commits. -/
theorem execLoop_commit (snap : Snap) (rest : List SubOp) (answers : List Bool) (k : Nat) (m : Mirror) :
    execLoop (⟨[], snap⟩ :: rest) answers k m = execLoop rest answers k (m.commit snap) := rfl

/-! ### The run -/

/-- The block `e` has ended its command `i` as the result `r` of EXEC says. -/
structure State.EndedAs (e' e : State) (i : Instr) (r : Mirror × List Frame × Response) : Prop where
  m : e'.m = r.1
  wire : e'.wire = e.wire ++ r.2.1.flatMap frameBytes
  rsp : e'.rsp = some r.2.2
  mode : e'.mode = modeAfter i e.mode r.2.2
  tx : e'.tx = none
  busy : e'.seq.busy = e.seq.busy
  cmd : e'.seq.cmd = e.seq.cmd
  faultValid : e'.faultValid = e.faultValid
  faultCmd : e'.faultCmd = e.faultCmd
  cfg : e'.cfg = e.cfg

/-- The frames `fs` of the current sub-operation are still to be answered. -/
structure State.Left (e : State) (p : List SubOp) (fs : List Frame) : Prop where
  frames : (planFrames p).drop e.seq.k.toNat = fs ++ planFrames (p.drop (e.seq.j.toNat + 1))
  before : framesBefore p (e.seq.j.toNat + 1) = e.seq.k.toNat + fs.length

/-- At the beginning of a sub-operation all its frames are left. -/
theorem State.Left.of_begin {e : State} {p : List SubOp} {so : SubOp} (hso : p[e.seq.j.toNat]? = some so)
    (hk : e.seq.k.toNat = framesBefore p e.seq.j.toNat) : e.Left p so.frames :=
  ⟨by rw [hk, planFrames_drop hso], by rw [hk, framesBefore_succ hso]⟩

section
variable {e : State} {i : Instr} {p : List SubOp} {so : SubOp} {f : Frame} {fs : List Frame}

theorem State.At.left_ne_nil (hat : e.At i p so) (hleft : e.Left p fs) : fs ≠ [] := by
  rintro rfl
  have hlt := hat.lt
  rw [hleft.before] at hlt
  simp at hlt

theorem State.At.plannedFrame_of_left (hat : e.At i p so) (hleft : e.Left p (f :: fs)) : e.plannedFrame = some f := by
  rw [hat.plannedFrame_eq, ← List.head?_drop, hleft.frames]
  rfl

/-- After an Ok answer to the first frame left, the others are. -/
theorem State.At.left_frameOk (hat : e.At i p so) (hleft : e.Left p (f :: fs)) :
    ((e.emit f).frameOk f).Left p fs := by
  refine ⟨?_, ?_⟩
  · simp only [State.frameOk_seq, State.emit_seq, hat.k_succ, ← List.drop_drop, hleft.frames]
    rfl
  · simp only [State.frameOk_seq, State.emit_seq, hat.k_succ, hleft.before, List.length_cons]
    omega

theorem State.EndedAs.of_fault (hat : e.At i p so) (f : Frame) :
    ((e.emit f).frameFault f).EndedAs e i (e.m, [f], ⟨.transportFault, BitVec.ofNat 16 e.seq.k.toNat⟩) where
  m := rfl
  wire := by simp
  rsp := by simp [BitVec.ofNat_toNat]
  mode := by
    change e.mode = modeAfter i e.mode _
    unfold modeAfter
    split_ifs with hi hstatus
    · cases hstatus
    · rw [hat.mode, if_pos hi]
    · rfl
  tx := rfl
  busy := rfl
  cmd := rfl
  faultValid := rfl
  faultCmd := rfl
  cfg := rfl

theorem State.EndedAs.of_finish (hat : e.At i p so) (f : Frame) :
    ((e.emit f).frameOk f).commitSubOp.finish.EndedAs e i (e.m.commit so.commit, [f], ⟨.ok, 0#16⟩) where
  m := by rw [← hat.snap]; rfl
  wire := by simp
  rsp := rfl
  mode := by
    change finishMode e.seq.cmd e.mode = modeAfter i e.mode _
    simp only [finishMode, modeAfter, eq_reset_word_iff hat.cmd, if_true]
  tx := rfl
  busy := rfl
  cmd := rfl
  faultValid := rfl
  faultCmd := rfl
  cfg := rfl

/-- A frame before the end, which only sends its bytes as far as the end can tell. -/
theorem State.EndedAs.cons {e₁ e' : State} {r : Mirror × List Frame × Response} (h : e'.EndedAs e₁ i r)
    (hwire : e₁.wire = e.wire ++ frameBytes f) (hmode : e₁.mode = e.mode) (hbusy : e₁.seq.busy = e.seq.busy)
    (hcmd : e₁.seq.cmd = e.seq.cmd) (hvalid : e₁.faultValid = e.faultValid) (hfault : e₁.faultCmd = e.faultCmd)
    (hcfg : e₁.cfg = e.cfg) : e'.EndedAs e i (r.1, f :: r.2.1, r.2.2) where
  m := h.m
  wire := by rw [h.wire, hwire, List.flatMap_cons, List.append_assoc]
  rsp := h.rsp
  mode := by rw [h.mode, hmode]
  tx := h.tx
  busy := h.busy.trans hbusy
  cmd := h.cmd.trans hcmd
  faultValid := h.faultValid.trans hvalid
  faultCmd := h.faultCmd.trans hfault
  cfg := h.cfg.trans hcfg

end

theorem planFrames_cons (so : SubOp) (p : List SubOp) : planFrames (so :: p) = so.frames ++ planFrames p := rfl

/-- From its place in the plan, the block comes to what EXEC's loop says of the frames left, for every list of answers. -/
theorem runsOn_execLoop {i : Instr} {p : List SubOp} (xs : List (Bool × Pins × Pins)) {e : State} {so : SubOp}
    {fs : List Frame} (hat : e.At i p so) (hr : e.running = true) (htx : e.tx = none) (hleft : e.Left p fs)
    (hlen : xs.length = fs.length + (planFrames (p.drop (e.seq.j.toNat + 1))).length) :
    let r := execLoop (⟨fs, so.commit⟩ :: p.drop (e.seq.j.toNat + 1)) (xs.map (·.1)) e.seq.k.toNat e.m
    r.2.1.length ≤ xs.length
      ∧ ∃ e', RunsOn (answerEdges (xs.take r.2.1.length)) e e' ∧ e'.EndedAs e i r := by
  induction xs generalizing e so fs with
  | nil =>
    have hnil : fs = [] := List.length_eq_zero_iff.mp (by rw [List.length_nil] at hlen; omega)
    exact absurd hnil (hat.left_ne_nil hleft)
  | cons x xs ih =>
    obtain ⟨ok, a, b⟩ := x
    obtain ⟨f, fs, rfl⟩ := List.exists_cons_of_ne_nil (hat.left_ne_nil hleft)
    have hf := hat.plannedFrame_of_left hleft
    have hleft' := hat.left_frameOk hleft
    cases ok with
    | false => exact ⟨by simp [execLoop_fault], _, runsOn_fault hat hr htx hf, .of_fault hat f⟩
    | true =>
      simp only [List.map_cons, execLoop_ok]
      cases fs with
      | cons g gs =>
        have hk : e.seq.k.toNat + 1 ≠ framesBefore p (e.seq.j.toNat + 1) := by
          simp [hleft.before]
        have hlen' : xs.length = (g :: gs).length + (planFrames (p.drop (e.seq.j.toNat + 1))).length := by
          simp only [List.length_cons] at hlen ⊢
          omega
        obtain ⟨hle, e', hrun, hend⟩ := ih ((hat.emit f).frameOk f hk) hr rfl hleft' hlen'
        simp only [State.frameOk_seq, State.emit_seq, hat.k_succ] at hle hrun hend
        exact ⟨Nat.succ_le_succ hle, e', (runsOn_inside hat hr htx hf hk).append hrun,
          hend.cons rfl rfl rfl rfl rfl rfl rfl⟩
      | nil =>
        have hk : e.seq.k.toNat + 1 = framesBefore p (e.seq.j.toNat + 1) := hleft.before.symm
        rw [execLoop_commit]
        cases hso : p[e.seq.j.toNat + 1]? with
        | none =>
          rw [List.drop_eq_nil_of_le (List.getElem?_eq_none_iff.mp hso)]
          exact ⟨by simp [execLoop], _, runsOn_finish hat hr htx hf hk hso, .of_finish hat f⟩
        | some so' =>
          obtain ⟨hj, hget⟩ := List.getElem?_eq_some_iff.mp hso
          have hdrop : p.drop (e.seq.j.toNat + 1) = so' :: p.drop (e.seq.j.toNat + 1 + 1) := by
            rw [List.drop_eq_getElem_cons hj, hget]
          have hat' := (hat.emit f).nextSubOp f hk hso
          have hj' : (((e.emit f).frameOk f).commitSubOp.nextSubOp so').seq.j.toNat = e.seq.j.toNat + 1 := hat.j_succ
          have hk' : (((e.emit f).frameOk f).commitSubOp.nextSubOp so').seq.k.toNat = e.seq.k.toNat + 1 := hat.k_succ
          have hm' : (((e.emit f).frameOk f).commitSubOp.nextSubOp so').m = e.m.commit so.commit := hat.snap ▸ rfl
          have hleft' := State.Left.of_begin hat'.here (by rw [hj', hk', hk])
          have ih' := ih hat' hr rfl hleft' (by
            rw [hdrop, planFrames_cons, List.length_append, List.length_cons, List.length_singleton] at hlen
            rw [hj']
            omega)
          rw [hj', hk', hm'] at ih'
          obtain ⟨hle, e', hrun, hend⟩ := ih'
          rw [hdrop]
          exact ⟨Nat.succ_le_succ hle, e', (runsOn_nextSubOp hat hr htx hf hk hso).append hrun,
            hend.cons rfl rfl rfl rfl rfl rfl rfl⟩

theorem answerEdges_append (xs ys : List (Bool × Pins × Pins)) :
    answerEdges (xs ++ ys) = answerEdges xs ++ answerEdges ys := by
  induction xs with
  | nil => rfl
  | cons x xs ih => simp [answerEdges, ih]

theorem answerEdges_length (xs : List (Bool × Pins × Pins)) : (answerEdges xs).length = 2 * xs.length := by
  induction xs with
  | nil => rfl
  | cons x xs ih => simp [answerEdges, ih]; omega

theorem answerEdges_take_prefix (n : Nat) (xs : List (Bool × Pins × Pins)) :
    answerEdges (xs.take n) <+: answerEdges xs := by
  conv_rhs => rw [← List.take_append_drop n xs, answerEdges_append]
  exact List.prefix_append _ _

/-- Settles O59: after the accepting edge, `runsOn_execLoop` from the first frame of the plan. -/
theorem runningACommandIsItsExecProcedure : Obligations.RunningACommandIsItsExecProcedure := by
  intro s i p xs rest hpres hwf hi hr hp hlen hfuture r
  have ⟨_, _, _, hs, htx⟩ := hpres
  have hop : i = .reset ∨ i.isSetter = true := hi.imp_right And.left
  obtain ⟨so, p, hp'⟩ := plan_eq_cons (cfg := s.cfg) hop hr
  obtain rfl := Except.ok.inj (hp.symm.trans hp')
  have hat := State.begin_at (fun _ => hwf) hop hr hp
  obtain ⟨hle, e', hrun, hend⟩ : r.2.1.length ≤ xs.length
      ∧ ∃ e', RunsOn (answerEdges (xs.take r.2.1.length)) (s.begin i so) e' ∧ e'.EndedAs (s.begin i so) i r :=
    runsOn_execLoop xs hat (State.begin_running hs i so) htx (.of_begin hat.here rfl) (hlen.trans List.length_append)
  have hlength : (s.pins :: answerEdges (xs.take r.2.1.length)).length = 1 + 2 * r.2.1.length := by
    rw [List.length_cons, answerEdges_length, List.length_take, min_eq_left hle, Nat.add_comm]
  have hinputs : s.pins :: answerEdges (xs.take r.2.1.length) <+: s.inputs := by
    rw [State.inputs, hfuture, List.cons_prefix_cons]
    exact ⟨rfl, (answerEdges_take_prefix _ _).trans (List.prefix_append _ _)⟩
  obtain ⟨t, ht, hbut⟩ := (RunsOn.cons (edgeTo_begin hpres hi hr hp) hrun).runsTo (t := s) rfl hinputs
  have hmode : modeAfter i (s.begin i so).mode r.2.2 = modeAfter i s.mode r.2.2 := by
    unfold modeAfter
    split_ifs with hreset
    · rfl
    · rfl
    · obtain ⟨-, hm⟩ := hi.resolve_left hreset
      rw [hat.mode, if_neg hreset, hm]
  rw [hlength] at ht
  exact ⟨t, ht, (congrArg State.m hbut).trans hend.m, (congrArg State.wire hbut).trans hend.wire,
    (congrArg State.rsp hbut).trans hend.rsp, (congrArg State.mode hbut).trans (hend.mode.trans hmode),
    (congrArg State.tx hbut).trans hend.tx, (congrArg (·.seq.busy) hbut).trans hend.busy,
    (congrArg (·.seq.cmd) hbut).trans hend.cmd, (congrArg State.faultValid hbut).trans hend.faultValid,
    (congrArg State.faultCmd hbut).trans hend.faultCmd, (congrArg State.cfg hbut).trans hend.cfg⟩

end Sys2Proof.Machine
end

section
/-! RESET's complete run (42_reset_and_getters.md R91), and completion under a weakly fair transport
(70_reset_and_hazards.md R126, 92_eei_decisions.md D24). -/

namespace Sys2Proof.Machine

/-! ### RESET with every frame answered Ok -/

theorem sendFrames_allOk (fs : List Frame) {answers : List Bool} (h : ∀ b ∈ answers, b = true)
    (hlen : fs.length ≤ answers.length) (k : Nat) : sendFrames fs answers k = (fs, none, answers.drop fs.length) := by
  induction fs generalizing answers k with
  | nil => rfl
  | cons f fs ih =>
    obtain ⟨b, answers, rfl⟩ := List.exists_cons_of_length_pos (Nat.zero_lt_of_lt hlen)
    obtain ⟨hb, hrest⟩ := List.forall_mem_cons.mp h
    rw [hb, sendFrames, ih hrest (Nat.le_of_succ_le_succ hlen)]
    rfl

/-- With every frame answered `Ok` the loop sends the whole plan and commits every sub-operation. -/
theorem execLoop_allOk (p : List SubOp) {answers : List Bool} (h : ∀ b ∈ answers, b = true)
    (hlen : (planFrames p).length ≤ answers.length) (k : Nat) (m : Mirror) :
    execLoop p answers k m = (p.foldl (fun m so => m.commit so.commit) m, planFrames p, ⟨.ok, 0#16⟩) := by
  induction p generalizing answers k m with
  | nil => rfl
  | cons so p ih =>
    rw [planFrames_cons, List.length_append] at hlen
    have hrest : (planFrames p).length ≤ (answers.drop so.frames.length).length := by
      rw [List.length_drop]; omega
    rw [execLoop, sendFrames_allOk so.frames h (by omega)]
    simp only
    rw [ih (fun b hb => h b (List.mem_of_mem_drop hb)) hrest]
    rfl

/-- The eleven sub-operations of RESET write different fields, so their order does not matter. -/
theorem resetSubOp_commit_comm (wl : BitVec 2) (m : Mirror) (x y : ResetSub) :
    (m.commit (resetSubOp wl x).commit).commit (resetSubOp wl y).commit
      = (m.commit (resetSubOp wl y).commit).commit (resetSubOp wl x).commit := by
  rcases x with (_ | _) | (_ | _) | _ | (_ | _) | _ | (_ | _) | _ <;>
    rcases y with (_ | _) | (_ | _) | _ | (_ | _) | _ | (_ | _) | _ <;> rfl

/-- Committed one after the other in any admitted order, they leave the zero mirror. -/
theorem resetSubOps_commit (wl : BitVec 2) (m : Mirror) {order : List ResetSub} (h : order.Perm ResetSub.listed) :
    (order.map (resetSubOp wl)).foldl (fun m so => m.commit so.commit) m = Mirror.zero := by
  rw [List.foldl_map, h.foldl_eq' (fun x _ y _ m => resetSubOp_commit_comm wl m x y)]
  rfl

/-- Settles O27: RESET's run is EXEC's (O59), and with every answer `Ok` EXEC runs the whole plan. -/
theorem resetRunMakesTheBlockReady : Obligations.ResetRunMakesTheBlockReady := by
  intro s xs rest hpres hwf hlen hok hfuture
  have hp := planReset_eq s.cfg
  have hframes := planFrames_reset_length hwf
  obtain ⟨t, ht, hm, hwire, hrsp, hmode, htx, -, -, hvalid, hcmd, hcfg⟩ :=
    runningACommandIsItsExecProcedure s .reset _ xs rest hpres hwf (.inl rfl) rfl hp (hlen.trans hframes.symm) hfuture
  rw [execLoop_allOk _ (by simpa using hok) (by simp [hframes, hlen])] at ht hm hwire hrsp hmode
  rw [hframes] at ht
  exact ⟨t, _, ht, hp, hmode, hm.trans (resetSubOps_commit _ _ hwf), hrsp, htx, hvalid, hcmd, hcfg, hwire⟩

/-! ### Completion under a fair transport -/

/-- The invariant does not read the pins. -/
theorem State.Inv.withPins {u : State} (h : u.Inv) (q : Pins) : State.Inv { u with pins := q } :=
  ⟨h.cfgWf, h.chipWf, h.faultIff, h.fatalIdle, h.rspBusy, h.txPlanned, h.inPlan⟩

/-- What a running command can do in one step: its frame is on the port afterwards; or the frame in flight was answered,
and the response is formed or the next frame has its turn. -/
inductive RunningStep (s u : State) : Prop where
  | onPort (hr : u.running = true) (htx : u.tx ≠ none) (hk : u.seq.k = s.seq.k)
      (hwait : s.tx ≠ none → s.pins.txDone = false)
  | ended (htx : u.tx = none) (hrsp : u.rsp ≠ none)
  | answered (hr : u.running = true) (hk : u.seq.k.toNat = s.seq.k.toNat + 1)

theorem State.Inv.runningStep {s u : State} (h : s.Inv) (hr : s.running = true) (hrst : s.pins.rstN = true)
    (hstep : step s = .next u) : u.seq.cmd = s.seq.cmd ∧ RunningStep s u := by
  obtain ⟨f, -, hf, hwrite⟩ := h.step_running hr hrst
  obtain ⟨_, _, _, hat⟩ := h.at hr
  obtain ⟨t, ht, rfl⟩ := thenAdvance_eq_next.mp (hwrite.symm.trans hstep)
  rcases frameWrite_cases ht with ⟨rfl, hw⟩ | ⟨-, htx, rfl⟩ | ⟨-, htx, hy, hz, rfl⟩ | ⟨-, htx, hy, hz, ha⟩
  · obtain ⟨g, htx, hw⟩ := hw.resolve_left (by simp [hr])
    have hfg : g = f := Option.some.inj (htx.symm.trans (hf.resolve_right (by simp [htx])))
    refine ⟨by simp, .onPort ((State.advance_running _).trans hr) (by simp [htx]) (by simp) fun _ => ?_⟩
    exact hw.resolve_left (not_not_intro hfg)
  · exact ⟨by simp, .onPort ((State.advance_running _).trans hr) (by simp) (by simp) fun hne => absurd htx hne⟩
  · exact ⟨by simp, .ended (by simp) (by simp)⟩
  · cases ha with
    | inside => exact ⟨by simp, .answered ((State.advance_running _).trans hr) (by simp [hat.k_succ])⟩
    | nextSubOp => exact ⟨by simp, .answered ((State.advance_running _).trans hr) (by simp [hat.k_succ])⟩
    | finish => exact ⟨by simp, .ended (by simp) (by simp)⟩

section
variable {σ : Nat → State} (hσ : IsRun σ) (hrst : ∀ n, (σ n).pins.rstN = true) (h0 : (σ 0).Inv)
include hσ h0

theorem IsRun.inv (n : Nat) : (σ n).Inv := by
  induction n with
  | zero => exact h0
  | succ n ih =>
    obtain ⟨u, q, hstep, hnext⟩ := hσ n
    rw [hnext]
    exact (everyStepKeepsTheInvariant _ _ ih hstep).withPins q

include hrst

theorem IsRun.runningStep {n : Nat} (hr : (σ n).running = true) :
    (σ (n + 1)).seq.cmd = (σ n).seq.cmd ∧ RunningStep (σ n) (σ (n + 1)) := by
  obtain ⟨u, q, hstep, hnext⟩ := hσ n
  obtain ⟨hcmd, hu⟩ := (hσ.inv h0 n).runningStep hr (hrst n) hstep
  rw [hnext]
  refine ⟨hcmd, ?_⟩
  cases hu with
  | onPort hr htx hk hwait => exact .onPort hr htx hk hwait
  | ended htx hrsp => exact .ended htx hrsp
  | answered hr hk => exact .answered hr hk

/-- A command that ran for ever would have a frame answered again and again. -/
theorem IsRun.exists_answered (hfair : TransportFair σ) (hr : ∀ n, (σ n).running = true) (n : Nat) :
    ∃ m, n ≤ m ∧ (σ m).seq.k.toNat < (σ (m + 1)).seq.k.toNat := by
  by_contra hno
  push Not at hno
  have hport : ∀ m, n ≤ m → (σ (m + 1)).tx ≠ none ∧ ((σ m).tx ≠ none → (σ m).pins.txDone = false) := by
    intro m hm
    rcases (hσ.runningStep hrst h0 (hr m)).2 with ⟨-, htx, -, hwait⟩ | ⟨-, hrsp⟩ | ⟨-, hk⟩
    · exact ⟨htx, hwait⟩
    · exact absurd ((σ (m + 1)).running_iff.mp (hr (m + 1))).2 hrsp
    · have := hno m hm
      omega
  have hflight : ∀ m, n + 1 ≤ m → (σ m).tx ≠ none := by
    intro m hm
    obtain ⟨m, rfl⟩ : ∃ l, m = l + 1 := ⟨m - 1, by omega⟩
    exact (hport m (by omega)).1
  obtain ⟨m, hm, hy⟩ := hfair (n + 1) fun m hm => ⟨hrst m, hflight m hm⟩
  have hwait := (hport m (by omega)).2 (hflight m hm)
  simp [hy] at hwait

/-- `SEQ.K` never falls while a command runs. -/
theorem IsRun.k_le (hr : ∀ n, (σ n).running = true) {n m : Nat} (hnm : n ≤ m) :
    (σ n).seq.k.toNat ≤ (σ m).seq.k.toNat := by
  induction m, hnm using Nat.le_induction with
  | base => exact le_rfl
  | succ m _ ih =>
    rcases (hσ.runningStep hrst h0 (hr m)).2 with ⟨-, -, hk, -⟩ | ⟨-, hrsp⟩ | ⟨-, hk⟩
    · rwa [hk]
    · exact absurd ((σ (m + 1)).running_iff.mp (hr (m + 1))).2 hrsp
    · omega

/-- Under a fair transport no command runs for ever: `SEQ.K` would pass every bound. -/
theorem IsRun.exists_not_running (hfair : TransportFair σ) : ∃ n, (σ n).running = false := by
  by_contra hno
  have hr : ∀ n, (σ n).running = true := fun n => by simpa using not_exists.mp hno n
  have hgrows : ∀ d, ∃ n, d ≤ (σ n).seq.k.toNat := by
    intro d
    induction d with
    | zero => exact ⟨0, Nat.zero_le _⟩
    | succ d ih =>
      obtain ⟨n, hn⟩ := ih
      obtain ⟨m, hnm, hm⟩ := hσ.exists_answered hrst h0 hfair hr n
      have := hσ.k_le hrst h0 hr hnm
      exact ⟨m + 1, by omega⟩
  obtain ⟨n, hn⟩ := hgrows 15
  have := frameIndexIsAtMostFourteen (σ n) (hσ.inv h0 n) (hr n)
  omega

end

/-- Settles O43: at the first edge where the command no longer runs, the step before it has formed the response. -/
theorem fairTransportCompletesEveryCommand : Obligations.FairTransportCompletesEveryCommand := by
  intro σ hσ hfair hrst h0 hr0
  have hstops := hσ.exists_not_running hrst h0 hfair
  obtain ⟨m, hm, hfirst⟩ : ∃ m, (σ m).running = false ∧ ∀ l, l < m → (σ l).running = true :=
    ⟨Nat.find hstops, Nat.find_spec hstops, fun l hl => by simpa using Nat.find_min hstops hl⟩
  have hcmd : ∀ l, l ≤ m → (σ l).seq.cmd = (σ 0).seq.cmd := by
    intro l hl
    induction l with
    | zero => rfl
    | succ l ih => exact (hσ.runningStep hrst h0 (hfirst l hl)).1.trans (ih (Nat.le_of_succ_le hl))
  obtain ⟨n, rfl⟩ : ∃ n, m = n + 1 := Nat.exists_eq_succ_of_ne_zero (by rintro rfl; simp [hr0] at hm)
  rcases (hσ.runningStep hrst h0 (hfirst n (Nat.lt_succ_self n))).2 with ⟨hr, -⟩ | ⟨htx, hrsp⟩ | ⟨hr, -⟩
  · simp [hr] at hm
  · exact ⟨n + 1, hrsp, htx, hfirst, hcmd⟩
  · simp [hr] at hm

end Sys2Proof.Machine
end
